-- ==== Sys2Proof/Word.lean ====
section
/-! DEFINITION. The words of the block: an 88-bit request word (30_encoding.md R70), a 9-bit wire
instruction (R76), and a byte. Bits are numbered from 0 at the least significant bit (00_scope.md R11). -/

namespace Sys2Proof

/-- An 8-bit value: an operand byte, a command byte, a character code, a glyph row (R73, R58). -/
abbrev Byte := BitVec 8

/-- The request word `{OP, A, B, M}` on `req[87:0]` (30_encoding.md R70). -/
abbrev ReqWord := BitVec 88

/-- The wire instruction `{RS, D[7:0]}` (30_encoding.md R76). -/
abbrev WireWord := BitVec 9

/-- A word in one of the two formats of spec/opcode_table.json. -/
inductive Word where
  /-- Format REQ88: a request the host hands the block. -/
  | req88 (w : ReqWord)
  /-- Format WIRE9: a wire instruction the block emits, at the hand-off from the Command Encoder to
  the Bus Framer. It is no request (00_scope.md R19); DESIGN CHOICE, log 5. -/
  | wire9 (w : WireWord)
  deriving DecidableEq, Repr

/-- A 1-bit value as a byte, in bit 0. -/
def bit (b : Bool) : Byte := (BitVec.ofBool b).setWidth 8

end Sys2Proof
end

