-- ==== Sys2Proof/Syntax.lean ====
section
/-! DEFINITION. The instructions: one constructor per row of spec/opcode_table.json, 19 requests of
format REQ88 (30_encoding.md R72) and 9 wire instructions of format WIRE9 (R77). A constructor holds
the operands its row names and no other bit; a field or bit the row does not name is ignored (R73).
Reserved OP values have no row and no constructor; the decoder names them (log 9). -/

namespace Sys2Proof

/-- One constructor per row of spec/opcode_table.json. -/
inductive Instr where
  /-- BEGIN, OP 0x01 (R160). -/
  | beginInit
  /-- WRITE_CMD, OP 0x02: A is the command byte (R190). -/
  | writeCmd (cmd : Byte)
  /-- WRITE_TEXT, OP 0x03: A is the character code (R191). -/
  | writeText (char : Byte)
  /-- WRITE_CUSTOM, OP 0x04: A is the glyph slot, all 8 bits (R192). -/
  | writeCustom (slot : Byte)
  /-- SET_CURSOR, OP 0x05: A is the line, B the column (R210). -/
  | setCursor (line column : Byte)
  /-- CUSTOM_CHAR, OP 0x06: A is the glyph slot, M the bitmap (R212). -/
  | customChar (slot : Byte) (bitmap : BitVec 64)
  /-- UPDATE_CONFIG, OP 0x07 (R242). -/
  | updateConfig
  /-- SEND, OP 0x08: A is the byte, B[0] is rs (R140). -/
  | send (byte : Byte) (rs : Bool)
  /-- SET_EN_MASK, OP 0x09: A[1:0] is the mask (R243). -/
  | setEnMask (mask : BitVec 2)
  /-- DISPLAY_ON, OP 0x10 (R231). -/
  | displayOn
  /-- DISPLAY_OFF, OP 0x11 (R232). -/
  | displayOff
  /-- CURSOR_ON, OP 0x12 (R233). -/
  | cursorOn
  /-- CURSOR_OFF, OP 0x13 (R234). -/
  | cursorOff
  /-- BLINK_ON, OP 0x14 (R235). -/
  | blinkOn
  /-- BLINK_OFF, OP 0x15 (R236). -/
  | blinkOff
  /-- AUTOSCROLL_ON, OP 0x16 (R237). -/
  | autoscrollOn
  /-- AUTOSCROLL_OFF, OP 0x17 (R238). -/
  | autoscrollOff
  /-- LEFT_TO_RIGHT, OP 0x18 (R239). -/
  | leftToRight
  /-- RIGHT_TO_LEFT, OP 0x19 (R240). -/
  | rightToLeft
  /-- CLEAR_DISPLAY, wire 0 0000 0001 (R101). -/
  | clearDisplay
  /-- RETURN_HOME, wire 0 0000 001x (R102). -/
  | returnHome (x : Bool)
  /-- ENTRY_MODE_SET, wire 0 0000 01 ID S (R103). -/
  | entryModeSet (id s : Bool)
  /-- DISPLAY_CONTROL, wire 0 0000 1 D C B (R104). -/
  | displayControl (d c b : Bool)
  /-- CURSOR_DISPLAY_SHIFT, wire 0 0001 SC RL xx (R105). -/
  | cursorDisplayShift (sc rl : Bool) (x : BitVec 2)
  /-- FUNCTION_SET, wire 0 001 DL N F xx (R106). -/
  | functionSet (dl n f : Bool) (x : BitVec 2)
  /-- SET_CGRAM_ADDR, wire 0 01 AAAAAA (R107). -/
  | setCgramAddr (acg : BitVec 6)
  /-- SET_DDRAM_ADDR, wire 0 1 AAAAAAA (R108). -/
  | setDdramAddr (add : BitVec 7)
  /-- WRITE_DATA, wire 1 DDDDDDDD (R109). -/
  | writeData (data : Byte)
  deriving DecidableEq, Repr

/-- The rows of format REQ88: the requests the block takes (00_scope.md R19). -/
def Instr.isRequest : Instr → Bool
  | .beginInit => true
  | .writeCmd _ => true
  | .writeText _ => true
  | .writeCustom _ => true
  | .setCursor _ _ => true
  | .customChar _ _ => true
  | .updateConfig => true
  | .send _ _ => true
  | .setEnMask _ => true
  | .displayOn => true
  | .displayOff => true
  | .cursorOn => true
  | .cursorOff => true
  | .blinkOn => true
  | .blinkOff => true
  | .autoscrollOn => true
  | .autoscrollOff => true
  | .leftToRight => true
  | .rightToLeft => true
  | .clearDisplay => false
  | .returnHome _ => false
  | .entryModeSet _ _ => false
  | .displayControl _ _ _ => false
  | .cursorDisplayShift _ _ _ => false
  | .functionSet _ _ _ _ => false
  | .setCgramAddr _ => false
  | .setDdramAddr _ => false
  | .writeData _ => false

/-- A line of a request program in the assembler syntax of 30_encoding.md R84, its operands read as
numbers, and the three pseudo-instructions of R85. -/
inductive AsmLine where
  | beginInit
  | writeCmd (byte : Nat)
  | writeText (byte : Nat)
  | writeCustom (slot : Nat)
  | setCursor (line column : Nat)
  | customChar (slot r0 r1 r2 r3 r4 r5 r6 r7 : Nat)
  | updateConfig
  | send (byte rs : Nat)
  | setEnMask (mask : Nat)
  | displayOn
  | displayOff
  | cursorOn
  | cursorOff
  | blinkOn
  | blinkOff
  | autoscrollOn
  | autoscrollOff
  | leftToRight
  | rightToLeft
  /-- `WRITE_STRING "s"`, as the list of character codes of s. -/
  | writeString (codes : List Nat)
  /-- `CLEAR`, which is `WRITE_CMD 0x01`. -/
  | clear
  /-- `HOME`, which is `WRITE_CMD 0x02`. -/
  | home
  deriving DecidableEq, Repr

end Sys2Proof
end

