-- ==== Sys2Proof/Decode.lean ====
section
/-! DEFINITION. The decoder, total on every word, rejecting by name, and after it the encoder, both
written from 30_encoding.md R70 to R77 and spec/opcode_table.json. -/

namespace Sys2Proof

/-! ### Request word fields (R70) -/

/-- `OP`, bits 87 to 80. -/
def opField (w : ReqWord) : Byte := w.extractLsb' 80 8

/-- `A`, bits 79 to 72. -/
def aField (w : ReqWord) : Byte := w.extractLsb' 72 8

/-- `B`, bits 71 to 64. -/
def bField (w : ReqWord) : Byte := w.extractLsb' 64 8

/-- `M`, bits 63 to 0. -/
def mField (w : ReqWord) : BitVec 64 := w.extractLsb' 0 64

/-- The request word `{OP, A, B, M}` (R70). -/
def reqWord (op a b : Byte) (m : BitVec 64) : ReqWord :=
  (op.setWidth 88 <<< 80) ||| (a.setWidth 88 <<< 72) ||| (b.setWidth 88 <<< 64) ||| m.setWidth 88

/-! ### Wire word fields (R76) -/

/-- `RS`, bit 8. -/
def rsField (w : WireWord) : Bool := w.getLsbD 8

/-- `D[7:0]`, bits 7 to 0. -/
def dField (w : WireWord) : Byte := w.extractLsb' 0 8

/-- The wire word `{RS, D}` (R76). -/
def wireWord (rs : Bool) (d : Byte) : WireWord := ((BitVec.ofBool rs).setWidth 9 <<< 8) ||| d.setWidth 9

/-! ### Decoder -/

/-- Why a word is no row of spec/opcode_table.json. -/
inductive Reject where
  /-- A request word whose `OP` is reserved: 0x00, 0x0A..0x0F, 0x1A..0xFF (R75). The block accepts it
  with no effect (45_configuration.md R246). -/
  | reservedOp (op : Byte)
  /-- The wire word 0 0000 0000, "(no instruction)" in the command map (R77). -/
  | noInstruction
  deriving DecidableEq, Repr

/-- The request a request word carries (R72, R73). -/
def decodeRequest (w : ReqWord) : Except Reject Instr :=
  match (opField w).toNat with
  | 0x01 => .ok .beginInit
  | 0x02 => .ok (.writeCmd (aField w))
  | 0x03 => .ok (.writeText (aField w))
  | 0x04 => .ok (.writeCustom (aField w))
  | 0x05 => .ok (.setCursor (aField w) (bField w))
  | 0x06 => .ok (.customChar (aField w) (mField w))
  | 0x07 => .ok .updateConfig
  | 0x08 => .ok (.send (aField w) ((bField w).getLsbD 0))
  | 0x09 => .ok (.setEnMask ((aField w).extractLsb' 0 2))
  | 0x10 => .ok .displayOn
  | 0x11 => .ok .displayOff
  | 0x12 => .ok .cursorOn
  | 0x13 => .ok .cursorOff
  | 0x14 => .ok .blinkOn
  | 0x15 => .ok .blinkOff
  | 0x16 => .ok .autoscrollOn
  | 0x17 => .ok .autoscrollOff
  | 0x18 => .ok .leftToRight
  | 0x19 => .ok .rightToLeft
  | _ => .error (.reservedOp (opField w))

/-- The command a byte with RS=0 is, by its highest set bit (the command map of R77). -/
def decodeCommand (d : Byte) : Except Reject Instr :=
  if d.getLsbD 7 then .ok (.setDdramAddr (d.extractLsb' 0 7))
  else if d.getLsbD 6 then .ok (.setCgramAddr (d.extractLsb' 0 6))
  else if d.getLsbD 5 then
    .ok (.functionSet (d.getLsbD 4) (d.getLsbD 3) (d.getLsbD 2) (d.extractLsb' 0 2))
  else if d.getLsbD 4 then .ok (.cursorDisplayShift (d.getLsbD 3) (d.getLsbD 2) (d.extractLsb' 0 2))
  else if d.getLsbD 3 then .ok (.displayControl (d.getLsbD 2) (d.getLsbD 1) (d.getLsbD 0))
  else if d.getLsbD 2 then .ok (.entryModeSet (d.getLsbD 1) (d.getLsbD 0))
  else if d.getLsbD 1 then .ok (.returnHome (d.getLsbD 0))
  else if d.getLsbD 0 then .ok .clearDisplay
  else .error .noInstruction

/-- The wire instruction a 9-bit word is; with RS=1 every byte is WRITE_DATA (R77). -/
def decodeWire (w : WireWord) : Except Reject Instr :=
  if rsField w then .ok (.writeData (dField w)) else decodeCommand (dField w)

/-- The decoder. -/
def decode : Word → Except Reject Instr
  | .req88 w => decodeRequest w
  | .wire9 w => decodeWire w

/-! ### Encoder: fields a row does not name are written 0 -/

/-- A request with operand bytes A and B and no bitmap. -/
def encodeRequest (op a b : Byte) : Word := .req88 (reqWord op a b 0)

/-- A wire instruction of the command class. -/
def encodeCommand (d : Byte) : Word := .wire9 (wireWord false d)

/-- The word of an instruction, from the encoding tables R72, R74 and R77. -/
def encode : Instr → Word
  | .beginInit => encodeRequest 0x01 0 0
  | .writeCmd v => encodeRequest 0x02 v 0
  | .writeText c => encodeRequest 0x03 c 0
  | .writeCustom s => encodeRequest 0x04 s 0
  | .setCursor l c => encodeRequest 0x05 l c
  | .customChar s m => .req88 (reqWord 0x06 s 0 m)
  | .updateConfig => encodeRequest 0x07 0 0
  | .send v rs => encodeRequest 0x08 v (bit rs)
  | .setEnMask m => encodeRequest 0x09 (m.setWidth 8) 0
  | .displayOn => encodeRequest 0x10 0 0
  | .displayOff => encodeRequest 0x11 0 0
  | .cursorOn => encodeRequest 0x12 0 0
  | .cursorOff => encodeRequest 0x13 0 0
  | .blinkOn => encodeRequest 0x14 0 0
  | .blinkOff => encodeRequest 0x15 0 0
  | .autoscrollOn => encodeRequest 0x16 0 0
  | .autoscrollOff => encodeRequest 0x17 0 0
  | .leftToRight => encodeRequest 0x18 0 0
  | .rightToLeft => encodeRequest 0x19 0 0
  | .clearDisplay => encodeCommand 0x01
  | .returnHome x => encodeCommand (0x02 ||| bit x)
  | .entryModeSet id s => encodeCommand (0x04 ||| (bit id <<< 1) ||| bit s)
  | .displayControl d c b => encodeCommand (0x08 ||| (bit d <<< 2) ||| (bit c <<< 1) ||| bit b)
  | .cursorDisplayShift sc rl x =>
    encodeCommand (0x10 ||| (bit sc <<< 3) ||| (bit rl <<< 2) ||| x.setWidth 8)
  | .functionSet dl n f x =>
    encodeCommand (0x20 ||| (bit dl <<< 4) ||| (bit n <<< 3) ||| (bit f <<< 2) ||| x.setWidth 8)
  | .setCgramAddr a => encodeCommand (0x40 ||| a.setWidth 8)
  | .setDdramAddr a => encodeCommand (0x80 ||| a.setWidth 8)
  | .writeData c => .wire9 (wireWord true c)

/-! ### The opcode table's numbering -/

/-- The word whose bits, numbered as spec/opcode_table.json numbers them, are `w`. A row of format
WIRE9 has 9 bits; a shorter word than a request's has OP = 0 and would be no row, so up to 80 bits the
word is read as a wire word, and bits above bit 8 make it none. Bits above a request word's 88 make it
none. -/
def tableWord (nbits w : Nat) : Option Word :=
  if nbits ≤ 80 then
    if w < 2 ^ 9 then some (.wire9 (BitVec.ofNat 9 w)) else none
  else
    if w < 2 ^ 88 then some (.req88 (BitVec.ofNat 88 w)) else none

/-- The instruction the decoder reads from a word numbered as the opcode table numbers it. -/
def decodeTableWord (nbits w : Nat) : Option Instr :=
  match tableWord nbits w with
  | some v =>
    match decode v with
    | .ok i => some i
    | .error _ => none
  | none => none

end Sys2Proof
end

