-- ==== Sys2Proof/Config.lean ====
section
/-! DEFINITION. The static construction parameters of the block: 00_scope.md R7 (structural) and R8
(timing). No request changes them. The model keeps them in one record, which State carries unchanged
(log 1); whether a configuration is well-formed (R9) is in WellFormed.lean. -/

namespace Sys2Proof

/-- `BUS_WIDTH` (R7). -/
inductive BusWidth where
  | fourBit
  | eightBit
  deriving DecidableEq, Repr

/-- `TRANSPORT` (R7). -/
inductive Transport where
  | parallel
  | i2c
  deriving DecidableEq, Repr

/-- The timing parameters in microseconds, with the defaults of 00_scope.md R8 (D7). Each is a
minimum duration the block asks of the timing provider. -/
structure Timing where
  tPowerup  : Nat := 50000
  tProbe1   : Nat := 4100
  tProbe2   : Nat := 100
  tProbe3   : Nat := 100
  tSwitch4  : Nat := 40
  tAs       : Nat := 0
  tPweh     : Nat := 5
  tPostData : Nat := 2
  tPostCmd  : Nat := 40
  tLong     : Nat := 2000
  deriving DecidableEq, Repr

/-- The structural parameters of 00_scope.md R7 and the timing parameters of R8. The defaults given
here are those of R7 (`FONT_5X10` 0, `BACKLIGHT` 1). -/
structure Config where
  busWidth  : BusWidth
  transport : Transport
  columns   : Nat
  lines     : Nat
  /-- `LINE_BASE[0..LINES-1]`, line 0 first. -/
  lineBase  : List Byte
  font5x10  : Bool := false
  backlight : Bool := true
  /-- OPEN in the spec (D25); no rule depends on its value. -/
  i2cAddr   : BitVec 7
  timing    : Timing := {}
  deriving DecidableEq, Repr

/-- The configuration that State.reset binds. DESIGN CHOICE (log 1, log 2): the spec takes the
parameters as arguments and gives `BUS_WIDTH`, `TRANSPORT`, the layout and `I2C_ADDR` no default. The
layout is the one 95_test_vectors.md uses unless it says otherwise (16 columns, 2 lines, PARALLEL). -/
def Config.atReset : Config where
  busWidth  := .fourBit
  transport := .parallel
  columns   := 16
  lines     := 2
  lineBase  := [0x80#8, 0xC0#8]
  i2cAddr   := 0#7

end Sys2Proof
end

