-- ==== Sys2Proof/Machine/State.lean ====
section
/-! DEFINITION. The state of the block (10_state.md R22), its micro-events (00_scope.md R13), what the
host does at its ports, the state after reset (R38), and the reasons a step can stop. -/

namespace Sys2Proof.Machine

/-- `init_state` (10_state.md R26). The values 6 and 7 are never held, so the type leaves them out
(93_implementation_defined.md I21). -/
inductive InitState where
  | uninit
  | busWidthProbe
  | functionSet
  | entryModeSet
  | displayControlSet
  | ready
  deriving DecidableEq, Repr

/-- The staged DisplayConfig bits (10_state.md R23 to R28). -/
structure DisplayConfig where
  /-- `cfg.D`, display on (R23). -/
  d  : Bool
  /-- `cfg.C`, cursor shown (R24). -/
  c  : Bool
  /-- `cfg.B`, blink on (R25). -/
  b  : Bool
  /-- `cfg.ID`, left-to-right entry (R27). -/
  id : Bool
  /-- `cfg.S`, auto-scroll on (R28). -/
  s  : Bool
  deriving DecidableEq, Repr

/-- The values a `Phase` micro-event drives on the transport (00_scope.md R13, 30_encoding.md R80). -/
structure Phase where
  rs : Bool
  en : BitVec 2
  d  : Byte
  deriving DecidableEq, Repr

/-- A micro-event, the unit of the block's output (00_scope.md R13). -/
inductive MicroEvent where
  /-- Drives the transport lines. -/
  | phase (p : Phase)
  /-- Holds every line for at least this many microseconds (R15). -/
  | wait (us : Nat)
  /-- Writes `init_state`; nothing on the wire. -/
  | setInit (i : InitState)
  deriving DecidableEq, Repr

/-- `lines`: the values last driven on the transport (10_state.md R32). -/
structure Lines where
  rs : Bool
  rw : Bool
  en : BitVec 2
  d  : Byte
  deriving DecidableEq, Repr

/-- One thing the host does at the block's ports. DESIGN CHOICE, log 3. -/
inductive Input where
  /-- Presents this word with `req_valid = 1` and holds it until the block accepts it (30_encoding.md
  R71). A WIRE9 word stands at the block's internal hand-off (log 5). -/
  | word (w : Word)
  /-- Presents nothing (`req_valid = 0`) for one step of the block. -/
  | quiet
  /-- Asserts reset in this step (70_reset_and_hazards.md R280, R281). -/
  | reset
  deriving DecidableEq, Repr

/-- The state: the record of 10_state.md R22, and three fields of the model's own (`conf`, `inputs`,
`trace`). -/
structure State where
  /-- MODEL'S OWN: the static configuration (00_scope.md R7, R8); no step changes it (log 1). -/
  conf      : Config
  /-- The staged configuration (R23 to R28). -/
  cfg       : DisplayConfig
  /-- Initialisation progress (R26). -/
  initState : InitState
  /-- `EN_MASK`, the active Enable lines (R29). -/
  enMask    : BitVec 2
  /-- A request is in progress (R30). -/
  busy      : Bool
  /-- The micro-events still to emit, in order (R31). -/
  seq       : List MicroEvent
  /-- The line values last driven (R32). -/
  lines     : Lines
  /-- MODEL'S OWN: what the host will do at the ports, next first (log 3). -/
  inputs    : List Input
  /-- MODEL'S OWN: the micro-events emitted so far, oldest first, the observation of R13 (log 4). -/
  trace     : List MicroEvent
  deriving DecidableEq, Repr

/-- The reset values of `cfg`, which are also the defaults BEGIN loads (R38, 42_initialization.md
R167). -/
def DisplayConfig.default : DisplayConfig := { d := true, c := false, b := false, id := true, s := false }

/-- The reset values of the lines: all fields 0 (R32, R38). -/
def Lines.zero : Lines := { rs := false, rw := false, en := 0#2, d := 0#8 }

/-- The state right after a reset that binds the configuration `c` (R38, 70_reset_and_hazards.md
R280). The model's own fields `inputs` and `trace` are empty (log 3, log 4). -/
def State.resetWith (c : Config) : State where
  conf      := c
  cfg       := .default
  initState := .uninit
  enMask    := 0b11#2
  busy      := false
  seq       := []
  lines     := .zero
  inputs    := []
  trace     := []

/-- The machine right after reset; the configuration it binds is a DESIGN CHOICE (log 1). -/
def State.reset : State := State.resetWith Config.atReset

/-- Faults: none. "The block raises no exception, trap or fault, and it has no cause codes"
(60_exceptions.md R260), so the type has no constructor (log 11). -/
inductive Fault
  deriving DecidableEq, Repr

/-- Why a step gives no behaviour. -/
inductive Refusal where
  /-- Raised by exec's arm of an instruction without a meaning. No arm of this model raises it. Safe. -/
  | notModelled (mnemonic : String)
  /-- Raised by step when the configuration is ill-formed: "A model refuses to construct the block from
  an ill-formed configuration. It gives such a configuration no behaviour" (00_scope.md R9, D41;
  log 10). Safe. -/
  | illFormedConfig
  deriving DecidableEq, Repr

end Sys2Proof.Machine
end

