-- ==== Sys2Proof/Machine/Flags.lean ====
section
/-! DEFINITION. The flags of the block: the five staged DisplayConfig bits (10_state.md R23 to R28).
No request computes a flag (R34); the toggles and BEGIN write them. -/

namespace Sys2Proof.Machine

/-- `cfg.D <- v` (45_configuration.md R231, R232). -/
def State.setCfgD (v : Bool) (s : State) : State := { s with cfg := { s.cfg with d := v } }

/-- `cfg.C <- v` (R233, R234). -/
def State.setCfgC (v : Bool) (s : State) : State := { s with cfg := { s.cfg with c := v } }

/-- `cfg.B <- v` (R235, R236). -/
def State.setCfgB (v : Bool) (s : State) : State := { s with cfg := { s.cfg with b := v } }

/-- `cfg.ID <- v` (R239, R240). -/
def State.setCfgId (v : Bool) (s : State) : State := { s with cfg := { s.cfg with id := v } }

/-- `cfg.S <- v` (R237, R238). -/
def State.setCfgS (v : Bool) (s : State) : State := { s with cfg := { s.cfg with s := v } }

/-- Writes the defaults "display on, cursor off, blink off, left-to-right entry, no auto-scroll" into
the staged configuration (42_initialization.md R167). -/
def State.loadDefaultCfg (s : State) : State :=
  { s with cfg := { d := true, c := false, b := false, id := true, s := false } }

end Sys2Proof.Machine
end

