-- ==== Sys2Proof/Machine/Encoder.lean ====
section
/-! DEFINITION. The Command Encoder: pure functions from field values to an HD44780 command byte
(40_command_encoder.md R100 to R113). The byte values are the spec's, which marks all but 0x80 as
general knowledge (log 12). -/

namespace Sys2Proof.Machine

/-- CLEAR_DISPLAY (R101). -/
def encClear : Byte := 0x01#8

/-- RETURN_HOME, with the don't-care bit sent as 0 (R102). -/
def encHome : Byte := 0x02#8

/-- ENTRY_MODE_SET, `0x04 | (ID << 1) | S` (R103). -/
def encEntry (id s : Bool) : Byte := 0x04#8 ||| (bit id <<< 1) ||| bit s

/-- DISPLAY_CONTROL, `0x08 | (D << 2) | (C << 1) | B` (R104). -/
def encDisplay (d c b : Bool) : Byte := 0x08#8 ||| (bit d <<< 2) ||| (bit c <<< 1) ||| bit b

/-- CURSOR_DISPLAY_SHIFT, `0x10 | (SC << 3) | (RL << 2)` (R105). -/
def encShift (sc rl : Bool) : Byte := 0x10#8 ||| (bit sc <<< 3) ||| (bit rl <<< 2)

/-- FUNCTION_SET, `0x20 | (DL << 4) | (N << 3) | (F << 2)` (R106). -/
def encFunction (dl n f : Bool) : Byte := 0x20#8 ||| (bit dl <<< 4) ||| (bit n <<< 3) ||| (bit f <<< 2)

/-- SET_CGRAM_ADDR, `0x40 | (a & 0x3F)` (R107). -/
def encCgram (a : Byte) : Byte := 0x40#8 ||| (a &&& 0x3F#8)

/-- SET_DDRAM_ADDR: the value already has bit 7 set, and nothing is OR-ed in (R108). -/
def encDdram (v : Byte) : Byte := v

/-- `P_PROBE`, the "function set, 8-bit interface" pattern (R110). -/
def pProbe : Byte := encFunction true false false

/-- `P_SWITCH4`, the switch into 4-bit interface mode (R111). -/
def pSwitch4 : Byte := encFunction false false false

/-- `FS`, the function-set byte of the static configuration (R112). -/
def functionSetByte (c : Config) : Byte :=
  encFunction (c.busWidth == .eightBit) (decide (2 ≤ c.lines)) c.font5x10

end Sys2Proof.Machine
end

