-- ==== Sys2Proof/Machine/Framer.lean ====
section
/-! DEFINITION. The Bus Framer: the framing helpers of 41_bus_framer.md as lists of micro-events. Each
reads the static configuration `c` and the Enable mask `m` at the request's acceptance (R130), and keeps
no state between calls. -/

namespace Sys2Proof.Machine

/-- One `Phase` micro-event. -/
def phaseEv (rs : Bool) (en : BitVec 2) (d : Byte) : MicroEvent := .phase { rs := rs, en := en, d := d }

/-- `if T_AS > 0: emit(Wait(T_AS))` (R131). -/
def setupWait (c : Config) : List MicroEvent := if 0 < c.timing.tAs then [.wait c.timing.tAs] else []

/-- `tx(rs, d)`, one transaction (R131). -/
def tx (c : Config) (m : BitVec 2) (rs : Bool) (d : Byte) : List MicroEvent :=
  phaseEv rs 0#2 d :: (setupWait c ++ [phaseEv rs m d, .wait c.timing.tPweh, phaseEv rs 0#2 d])

/-- `postDelay(rs)` (R135). -/
def postDelay (c : Config) (rs : Bool) : MicroEvent :=
  .wait (if rs then c.timing.tPostData else c.timing.tPostCmd)

/-- The high nibble in `d[7:4]`, `v & 0xF0` (R134). -/
def highNibble (v : Byte) : Byte := v &&& 0xF0#8

/-- The low nibble shifted into `d[7:4]`, `(v << 4) mod 256` (R134). -/
def lowNibble (v : Byte) : Byte := v <<< 4

/-- The transactions of one byte: one on EightBit (R133), two on FourBit, high nibble first (R134). -/
def byteFrames (c : Config) (m : BitVec 2) (v : Byte) (rs : Bool) : List MicroEvent :=
  match c.busWidth with
  | .eightBit => tx c m rs v
  | .fourBit => tx c m rs (highNibble v) ++ tx c m rs (lowNibble v)

/-- `sendByte(v, rs)` (R133, R134): the byte's transactions, then the post-transaction delay. -/
def sendByte (c : Config) (m : BitVec 2) (v : Byte) (rs : Bool) : List MicroEvent :=
  byteFrames c m v rs ++ [postDelay c rs]

/-- The long-delay class, `(v == 0x01) or ((v & 0xFE) == 0x02)` (R139). -/
def isLong (v : Byte) : Bool := v == 0x01#8 || (v &&& 0xFE#8) == 0x02#8

/-- `if isLong(v): emit(Wait(T_LONG))` (R139). -/
def longDelay (c : Config) (v : Byte) : List MicroEvent := if isLong v then [.wait c.timing.tLong] else []

/-- `sendCmd(v)` (R139). -/
def sendCmd (c : Config) (m : BitVec 2) (v : Byte) : List MicroEvent :=
  sendByte c m v false ++ longDelay c v

/-- A raw single transaction and the wait after it, as BEGIN sends its probes and the 4-bit switch
(42_initialization.md R163, R164). -/
def rawCmd (c : Config) (m : BitVec 2) (v : Byte) (us : Nat) : List MicroEvent := tx c m false v ++ [.wait us]

end Sys2Proof.Machine
end

