-- ==== Sys2Proof/Machine/Ops.lean ====
section
/-! DEFINITION. The shared operations over the state: accepting a request (30_encoding.md R71), performing
one micro-event (10_state.md R31), reset (70_reset_and_hazards.md R280 to R282), and the ports the host
reads (R33, R71). The block has no memory and no exception (20_memory.md R50; 60_exceptions.md R260, R264),
so there is no memory operation and no exception entry or return here; reset is the only event that breaks
into a request (R265). -/

namespace Sys2Proof.Machine

/-- What acceptance does after the request's state writes: loads `seq` with the request's micro-event
list and sets `busy` exactly when that list is non-empty (R71). -/
def State.load (es : List MicroEvent) (s : State) : State := { s with seq := es, busy := !es.isEmpty }

/-- `EN_MASK <- m` (45_configuration.md R243). -/
def State.setEnMask (m : BitVec 2) (s : State) : State := { s with enMask := m }

/-- `emit(e)` appends the micro-event to the trace (00_scope.md R13). -/
def State.emit (e : MicroEvent) (s : State) : State := { s with trace := s.trace ++ [e] }

/-- The lines after a `Phase`: RS, Enable and data take its values, and RW is 0 (10_state.md R32). -/
def Phase.drive (p : Phase) : Lines := { rs := p.rs, rw := false, en := p.en, d := p.d }

/-- The effect of one micro-event on the state (R31): a `Wait` changes no field, because the model has
no clock (00_scope.md R15; log 7). -/
def State.perform (e : MicroEvent) (s : State) : State :=
  match e with
  | .phase p => { s with lines := p.drive }
  | .wait _ => s
  | .setInit i => { s with initState := i }

/-- One step of the sequencer: removes the head of `seq`, performs it and emits it; `busy` falls with the
last micro-event (R30, R31). With nothing left it does nothing: the block is idle (R270). -/
def State.advance (s : State) : State :=
  match s.seq with
  | [] => s
  | e :: es => (({ s with seq := es, busy := !es.isEmpty } : State).perform e).emit e

/-- Reset: every state field takes its reset value and the rest of `seq` is discarded at once; nothing is
emitted (R280 to R282). The configuration stays bound, and what the host does next and what was emitted
before are not the block's to change (log 8). -/
def State.takeReset (s : State) : State :=
  { State.resetWith s.conf with inputs := s.inputs, trace := s.trace }

/-- `req_ready = not busy` (R71). -/
def State.reqReady (s : State) : Bool := !s.busy

/-- The 3-bit encoding of `init_state` (10_state.md R26). -/
def InitState.code : InitState → BitVec 3
  | .uninit => 0
  | .busWidthProbe => 1
  | .functionSet => 2
  | .entryModeSet => 3
  | .displayControlSet => 4
  | .ready => 5

/-- A 1-bit value at a bit of the status port. -/
def statusBit (b : Bool) (i : Nat) : BitVec 16 := (BitVec.ofBool b).setWidth 16 <<< i

/-- The 16-bit read-only status port (10_state.md R33). -/
def State.statusPort (s : State) : BitVec 16 :=
  statusBit s.busy 0 ||| (s.initState.code.setWidth 16 <<< 1) ||| (s.enMask.setWidth 16 <<< 4)
    ||| statusBit s.cfg.b 6 ||| statusBit s.cfg.c 7 ||| statusBit s.cfg.d 8 ||| statusBit s.cfg.s 9
    ||| statusBit s.cfg.id 10

/-- Places a word so that the next step accepts it: it is what the host presents next, and no request is
in progress (log 3). Nothing is placed for bits that are no word. -/
def State.present (w : Option Word) (s : State) : State :=
  match w with
  | some v => { s with inputs := .word v :: s.inputs, busy := false, seq := [] }
  | none => s

end Sys2Proof.Machine
end

