-- ==== Sys2Proof/Machine/Configuration.lean ====
section
/-! DEFINITION. Configuration toggles, UPDATE_CONFIG and SET_EN_MASK (45_configuration.md R230 to R245).
A toggle's and SET_EN_MASK's micro-event list is empty (R230, R243). -/

namespace Sys2Proof.Machine

/-- DISPLAY_ON: `cfg.D <- 1` (R231). -/
def execDisplayOn (s : State) : Host.Outcome State Fault Refusal := .next ((s.setCfgD true).load [])

/-- DISPLAY_OFF: `cfg.D <- 0` (R232). -/
def execDisplayOff (s : State) : Host.Outcome State Fault Refusal := .next ((s.setCfgD false).load [])

/-- CURSOR_ON: `cfg.C <- 1` (R233). -/
def execCursorOn (s : State) : Host.Outcome State Fault Refusal := .next ((s.setCfgC true).load [])

/-- CURSOR_OFF: `cfg.C <- 0` (R234). -/
def execCursorOff (s : State) : Host.Outcome State Fault Refusal := .next ((s.setCfgC false).load [])

/-- BLINK_ON: `cfg.B <- 1` (R235). -/
def execBlinkOn (s : State) : Host.Outcome State Fault Refusal := .next ((s.setCfgB true).load [])

/-- BLINK_OFF: `cfg.B <- 0` (R236). -/
def execBlinkOff (s : State) : Host.Outcome State Fault Refusal := .next ((s.setCfgB false).load [])

/-- AUTOSCROLL_ON: `cfg.S <- 1` (R237). -/
def execAutoscrollOn (s : State) : Host.Outcome State Fault Refusal := .next ((s.setCfgS true).load [])

/-- AUTOSCROLL_OFF: `cfg.S <- 0` (R238). -/
def execAutoscrollOff (s : State) : Host.Outcome State Fault Refusal := .next ((s.setCfgS false).load [])

/-- LEFT_TO_RIGHT: `cfg.ID <- 1` (R239). -/
def execLeftToRight (s : State) : Host.Outcome State Fault Refusal := .next ((s.setCfgId true).load [])

/-- RIGHT_TO_LEFT: `cfg.ID <- 0` (R240). -/
def execRightToLeft (s : State) : Host.Outcome State Fault Refusal := .next ((s.setCfgId false).load [])

/-- UPDATE_CONFIG: the display-control byte, then the entry-mode byte, from `cfg` at acceptance
(R242, D16). -/
def execUpdateConfig (s : State) : Host.Outcome State Fault Refusal :=
  .next (s.load (sendCmd s.conf s.enMask (encDisplay s.cfg.d s.cfg.c s.cfg.b)
    ++ sendCmd s.conf s.enMask (encEntry s.cfg.id s.cfg.s)))

/-- SET_EN_MASK: a mask of 0b00 is ignored (R243, D19). -/
def execSetEnMask (mask : BitVec 2) (s : State) : Host.Outcome State Fault Refusal :=
  .next ((if mask = 0#2 then s else s.setEnMask mask).load [])

end Sys2Proof.Machine
end

