-- ==== Sys2Proof/Machine/Operands.lean ====
section
/-! DEFINITION. The operand forms: the range checks and the address arithmetic of SET_CURSOR
(44_cursor_and_glyph.md R210, R211) and of the glyph slot (R212, R213), and the glyph rows
(30_encoding.md R74). Every operand is unsigned (R73). -/

namespace Sys2Proof.Machine

/-- A glyph slot is in range exactly when it is below 8 (R212, 43_write.md R192). -/
def slotOk (slot : Byte) : Bool := decide (slot.toNat < 8)

/-- Row `i` of the bitmap, `M[8i+7 : 8i]` (R74). -/
def bitmapRow (m : BitVec 64) (i : Nat) : Byte := m.extractLsb' (8 * i) 8

/-- The 8 rows in sending order, row 0 first (R74). -/
def bitmapRows (m : BitVec 64) : List Byte := (List.range 8).map (bitmapRow m)

/-- The CGRAM address of a glyph slot, `a = s × 8` (R213). -/
def cgramAddress (slot : Byte) : Byte := slot * 8#8

/-- Both cursor checks, each a strict `<` (R210). -/
def cursorOk (c : Config) (line column : Byte) : Bool :=
  decide (line.toNat < c.lines) && decide (column.toNat < c.columns)

/-- `LINE_BASE[l]`. A line without an entry occurs only in an ill-formed configuration, which step
refuses; the model reads 0 there (log 15). -/
def lineBaseOf (c : Config) (line : Byte) : Byte := c.lineBase.getD line.toNat 0#8

/-- The cursor address arithmetic `v = (LINE_BASE[l] + c) mod 256` (R211). -/
def cursorByte (c : Config) (line column : Byte) : Byte := lineBaseOf c line + column

end Sys2Proof.Machine
end

