-- ==== Sys2Proof/Machine/Cursor.lean ====
section
/-! DEFINITION. Cursor addressing and custom glyph definition (44_cursor_and_glyph.md R210 to R216). -/

namespace Sys2Proof.Machine

/-- SET_CURSOR: the SET_DDRAM_ADDR byte of an in-range position, nothing otherwise (R210). -/
def execSetCursor (line column : Byte) (s : State) : Host.Outcome State Fault Refusal :=
  .next (s.load (if cursorOk s.conf line column
    then sendCmd s.conf s.enMask (encDdram (cursorByte s.conf line column)) else []))

/-- The CGRAM address command and the 8 rows of CUSTOM_CHAR with an in-range slot (R212). -/
def glyphEvents (c : Config) (m : BitVec 2) (slot : Byte) (bitmap : BitVec 64) : List MicroEvent :=
  sendCmd c m (encCgram (cgramAddress slot)) ++ (bitmapRows bitmap).flatMap (fun r => sendByte c m r true)

/-- CUSTOM_CHAR: the glyph when the slot is in range, then always Return-Home (R212). -/
def execCustomChar (slot : Byte) (bitmap : BitVec 64) (s : State) : Host.Outcome State Fault Refusal :=
  .next (s.load ((if slotOk slot then glyphEvents s.conf s.enMask slot bitmap else [])
    ++ sendCmd s.conf s.enMask encHome))

end Sys2Proof.Machine
end

