-- ==== Sys2Proof/Machine/Initialization.lean ====
section
/-! DEFINITION. BEGIN, the power-on initialisation sequence (42_initialization.md R160 to R172). -/

namespace Sys2Proof.Machine

/-- The three probes with their decreasing waits (R163). -/
def probeEvents (c : Config) (m : BitVec 2) : List MicroEvent :=
  rawCmd c m pProbe c.timing.tProbe1 ++ rawCmd c m pProbe c.timing.tProbe2
    ++ rawCmd c m pProbe c.timing.tProbe3

/-- The 4-bit switch, on FourBit only (R164). -/
def switchEvents (c : Config) (m : BitVec 2) : List MicroEvent :=
  match c.busWidth with
  | .fourBit => rawCmd c m pSwitch4 c.timing.tSwitch4
  | .eightBit => []

/-- BEGIN's micro-event list (R160), from the staged configuration `g` after the defaults are loaded. -/
def beginEvents (c : Config) (m : BitVec 2) (g : DisplayConfig) : List MicroEvent :=
  [.setInit .busWidthProbe, .wait c.timing.tPowerup]
    ++ probeEvents c m ++ switchEvents c m
    ++ [.setInit .functionSet]
    ++ sendCmd c m (functionSetByte c) ++ sendCmd c m encClear ++ sendCmd c m encHome
    ++ [.setInit .entryModeSet] ++ sendCmd c m (encEntry g.id g.s)
    ++ [.setInit .displayControlSet] ++ sendCmd c m (encDisplay g.d g.c g.b)
    ++ [.setInit .ready]

/-- Accepts BEGIN in a state whose staged configuration is already the default one. -/
def State.loadBegin (s : State) : State := s.load (beginEvents s.conf s.enMask s.cfg)

/-- BEGIN: the defaults are written at acceptance (R167), then the list of R160 is loaded. -/
def execBegin (s : State) : Host.Outcome State Fault Refusal := .next s.loadDefaultCfg.loadBegin

end Sys2Proof.Machine
end

