-- ==== Sys2Proof/Machine/Send.lean ====
section
/-! DEFINITION. SEND, the "low-level escape hatch" (41_bus_framer.md R140). -/

namespace Sys2Proof.Machine

/-- SEND: `sendByte(A, B[0])`, with no long delay for any byte (R140, D29). -/
def execSend (byte : Byte) (rs : Bool) (s : State) : Host.Outcome State Fault Refusal :=
  .next (s.load (sendByte s.conf s.enMask byte rs))

end Sys2Proof.Machine
end

