-- ==== Sys2Proof/Machine/Wire.lean ====
section
/-! DEFINITION. The wire instructions (format WIRE9; 40_command_encoder.md R101 to R109). They are bytes
the block emits, not requests it takes (00_scope.md R19). The meaning of one is its emission: the encoder
gives the byte, and "Its callers pass the byte to `sendByte` or `sendCmd`" (R100): a command through
`sendCmd`, which adds the long delay of its class (41_bus_framer.md R139), a data byte through `sendByte`
(R109). DESIGN CHOICE, log 5. -/

namespace Sys2Proof.Machine

/-- The emission of a command byte, RS=0. -/
def State.emitCommand (d : Byte) (s : State) : State := s.load (sendCmd s.conf s.enMask d)

/-- CLEAR_DISPLAY (R101). -/
def execClearDisplay (s : State) : Host.Outcome State Fault Refusal := .next (s.emitCommand encClear)

/-- RETURN_HOME, with its don't-care bit as it stands (R102). -/
def execReturnHome (x : Bool) (s : State) : Host.Outcome State Fault Refusal :=
  .next (s.emitCommand (encHome ||| bit x))

/-- ENTRY_MODE_SET (R103). -/
def execEntryModeSet (id es : Bool) (s : State) : Host.Outcome State Fault Refusal :=
  .next (s.emitCommand (encEntry id es))

/-- DISPLAY_CONTROL (R104). -/
def execDisplayControl (d c b : Bool) (s : State) : Host.Outcome State Fault Refusal :=
  .next (s.emitCommand (encDisplay d c b))

/-- CURSOR_DISPLAY_SHIFT, with its don't-care bits as they stand (R105). -/
def execCursorDisplayShift (sc rl : Bool) (x : BitVec 2) (s : State) : Host.Outcome State Fault Refusal :=
  .next (s.emitCommand (encShift sc rl ||| x.setWidth 8))

/-- FUNCTION_SET, with its don't-care bits as they stand (R106). -/
def execFunctionSet (dl n f : Bool) (x : BitVec 2) (s : State) : Host.Outcome State Fault Refusal :=
  .next (s.emitCommand (encFunction dl n f ||| x.setWidth 8))

/-- SET_CGRAM_ADDR (R107). -/
def execSetCgramAddr (acg : BitVec 6) (s : State) : Host.Outcome State Fault Refusal :=
  .next (s.emitCommand (encCgram (acg.setWidth 8)))

/-- SET_DDRAM_ADDR: the value handed to the encoder has bit 7 set (R108). -/
def execSetDdramAddr (add : BitVec 7) (s : State) : Host.Outcome State Fault Refusal :=
  .next (s.emitCommand (encDdram (0x80#8 ||| add.setWidth 8)))

/-- WRITE_DATA (R109). -/
def execWriteData (data : Byte) (s : State) : Host.Outcome State Fault Refusal :=
  .next (s.load (sendByte s.conf s.enMask data true))

end Sys2Proof.Machine
end

