-- ==== Sys2Proof/Machine/Write.lean ====
section
/-! DEFINITION. The write operations (43_write.md R190 to R193). -/

namespace Sys2Proof.Machine

/-- WRITE_CMD: `sendCmd(A)` (R190). -/
def execWriteCmd (cmd : Byte) (s : State) : Host.Outcome State Fault Refusal :=
  .next (s.load (sendCmd s.conf s.enMask cmd))

/-- WRITE_TEXT: `sendByte(A, 1)` (R191); no column is counted (R193). -/
def execWriteText (char : Byte) (s : State) : Host.Outcome State Fault Refusal :=
  .next (s.load (sendByte s.conf s.enMask char true))

/-- WRITE_CUSTOM: the slot index as a data byte, nothing for a slot of 8 or more (R192). -/
def execWriteCustom (slot : Byte) (s : State) : Host.Outcome State Fault Refusal :=
  .next (s.load (if slotOk slot then sendByte s.conf s.enMask slot true else []))

end Sys2Proof.Machine
end

