-- ==== Sys2Proof/Machine/Dispatch.lean ====
section
/-! DEFINITION. exec: what the block does when it accepts an instruction, one arm per row of
spec/opcode_table.json. -/

namespace Sys2Proof.Machine

def exec (i : Instr) (s : State) : Host.Outcome State Fault Refusal :=
  match i with
  | .beginInit => Sys2Proof.Machine.execBegin s
  | .writeCmd cmd => Sys2Proof.Machine.execWriteCmd cmd s
  | .writeText char => Sys2Proof.Machine.execWriteText char s
  | .writeCustom slot => Sys2Proof.Machine.execWriteCustom slot s
  | .setCursor line column => Sys2Proof.Machine.execSetCursor line column s
  | .customChar slot bitmap => Sys2Proof.Machine.execCustomChar slot bitmap s
  | .updateConfig => Sys2Proof.Machine.execUpdateConfig s
  | .send byte rs => Sys2Proof.Machine.execSend byte rs s
  | .setEnMask mask => Sys2Proof.Machine.execSetEnMask mask s
  | .displayOn => Sys2Proof.Machine.execDisplayOn s
  | .displayOff => Sys2Proof.Machine.execDisplayOff s
  | .cursorOn => Sys2Proof.Machine.execCursorOn s
  | .cursorOff => Sys2Proof.Machine.execCursorOff s
  | .blinkOn => Sys2Proof.Machine.execBlinkOn s
  | .blinkOff => Sys2Proof.Machine.execBlinkOff s
  | .autoscrollOn => Sys2Proof.Machine.execAutoscrollOn s
  | .autoscrollOff => Sys2Proof.Machine.execAutoscrollOff s
  | .leftToRight => Sys2Proof.Machine.execLeftToRight s
  | .rightToLeft => Sys2Proof.Machine.execRightToLeft s
  | .clearDisplay => Sys2Proof.Machine.execClearDisplay s
  | .returnHome x => Sys2Proof.Machine.execReturnHome x s
  | .entryModeSet id es => Sys2Proof.Machine.execEntryModeSet id es s
  | .displayControl d c b => Sys2Proof.Machine.execDisplayControl d c b s
  | .cursorDisplayShift sc rl x => Sys2Proof.Machine.execCursorDisplayShift sc rl x s
  | .functionSet dl n f x => Sys2Proof.Machine.execFunctionSet dl n f x s
  | .setCgramAddr acg => Sys2Proof.Machine.execSetCgramAddr acg s
  | .setDdramAddr add => Sys2Proof.Machine.execSetDdramAddr add s
  | .writeData data => Sys2Proof.Machine.execWriteData data s

end Sys2Proof.Machine
end

