-- ==== Sys2Proof/WellFormed.lean ====
section
/-! DEFINITION. Well-formedness. A configuration is checked by 00_scope.md R9; a line of assembler
text by 30_encoding.md R84. A term of Instr needs no check: the width of each operand is its type, and
every value of every operand is accepted (R73, R79; 60_exceptions.md R261). -/

namespace Sys2Proof

/-- `COLUMNS` is within 1..128 (R7, D27). -/
def Config.columnsOk (c : Config) : Bool := decide (1 ≤ c.columns) && decide (c.columns ≤ 128)

/-- `LINES` is within 1..4 (R7, D27). -/
def Config.linesOk (c : Config) : Bool := decide (1 ≤ c.lines) && decide (c.lines ≤ 4)

/-- `LINE_BASE` has exactly `LINES` entries (R9). -/
def Config.lineCountOk (c : Config) : Bool := c.lineBase.length == c.lines

/-- A base address has bit 7 set and `LINE_BASE[i] + COLUMNS - 1 <= 0xFF` (R7). -/
def Config.baseOk (c : Config) (b : Byte) : Bool := b.msb && decide (b.toNat + c.columns - 1 ≤ 0xFF)

/-- Every entry of `LINE_BASE` is within its legal values (R7). -/
def Config.lineBaseOk (c : Config) : Bool := c.lineBase.all c.baseOk

/-- `TRANSPORT = I2C` implies `BUS_WIDTH = FourBit` (R9, D23). -/
def Config.transportOk (c : Config) : Bool := c.transport != .i2c || c.busWidth == .fourBit

/-- The configuration is well-formed (R9). The remaining parameters of R7 have every value of their
type as a legal value. -/
def Config.wf (c : Config) : Bool :=
  c.columnsOk && c.linesOk && c.lineCountOk && c.lineBaseOk && c.transportOk

/-- An operand fits an 8-bit field of the request word. -/
def fitsByte (n : Nat) : Bool := decide (n < 256)

/-- Every operand of the line fits the field it is assembled into; "An operand that does not fit its
field is an assembly error" (R84). The operands of SET_EN_MASK and SEND are assembled into the whole
bytes A and B, as vectors V16, V82 and program P5 do (log 14). -/
def AsmLine.wf : AsmLine → Bool
  | .beginInit => true
  | .writeCmd v => fitsByte v
  | .writeText v => fitsByte v
  | .writeCustom s => fitsByte s
  | .setCursor l c => fitsByte l && fitsByte c
  | .customChar s r0 r1 r2 r3 r4 r5 r6 r7 =>
    fitsByte s && ([r0, r1, r2, r3, r4, r5, r6, r7].all fitsByte)
  | .updateConfig => true
  | .send v rs => fitsByte v && fitsByte rs
  | .setEnMask m => fitsByte m
  | .displayOn => true
  | .displayOff => true
  | .cursorOn => true
  | .cursorOff => true
  | .blinkOn => true
  | .blinkOff => true
  | .autoscrollOn => true
  | .autoscrollOff => true
  | .leftToRight => true
  | .rightToLeft => true
  | .writeString cs => cs.all fitsByte
  | .clear => true
  | .home => true

end Sys2Proof
end

