-- ==== Sys2Proof/Machine/Accept.lean ====
section
/-! DEFINITION. One step of the block: the request handshake (30_encoding.md R71), the sequencer
(10_state.md R31) and reset (70_reset_and_hazards.md R280 to R282) around exec. Step.lean only calls it. -/

namespace Sys2Proof.Machine

/-- Accepts a word that is no row of the opcode table. A reserved request "is accepted, emits nothing,
changes no state, and completes at acceptance" (30_encoding.md R75, 45_configuration.md R246). The wire
word 0 0000 0000 names no instruction, and "No RS=0 byte is illegal to the block" (R79): it is framed as
any command byte is (log 6). -/
def acceptReject (r : Reject) (s : State) : Host.Outcome State Fault Refusal :=
  match r with
  | .reservedOp _ => .next s
  | .noInstruction => .next (s.emitCommand 0x00#8)

/-- Accepts one word, captured whole (R71, 20_memory.md R63). -/
def accept (w : Word) (s : State) : Host.Outcome State Fault Refusal :=
  match decode w with
  | .ok i => exec i s
  | .error r => acceptReject r s

/-- What a word at the request port does in one step: accepted when `req_ready`, else the sequencer goes
on and the host keeps holding the word (R71). -/
def offer (w : Word) (rest : List Input) (s : State) : Host.Outcome State Fault Refusal :=
  if s.reqReady then accept w { s with inputs := rest } else .next s.advance

/-- One step of the block with a well-formed configuration. Reset acts at once, whether a request is in
progress or not (R281). -/
def blockStep (s : State) : Host.Outcome State Fault Refusal :=
  match s.inputs with
  | [] => .next s.advance
  | .quiet :: rest => .next ({ s with inputs := rest } : State).advance
  | .reset :: rest => .next ({ s with inputs := rest } : State).takeReset
  | .word w :: rest => offer w rest s

/-- "A model refuses to construct the block from an ill-formed configuration" (00_scope.md R9): no step
has a meaning there (log 10). -/
def gatedStep (s : State) : Host.Outcome State Fault Refusal :=
  if s.conf.wf then blockStep s else .refused .illFormedConfig

end Sys2Proof.Machine
end

