-- ==== Sys2Proof/Machine/Step.lean ====
section
/-! DEFINITION. The one step function, and where a word is placed for it to run next. -/

namespace Sys2Proof.Machine

/-- One step of the machine: the acceptance of one request, one micro-event, one reset, or nothing. -/
def step (s : State) : Host.Outcome State Fault Refusal := gatedStep s

/-- `s` with the instruction whose bits are `w`, as the opcode table numbers them, presented at the
block's port, so that the very next step accepts it (log 3). -/
def State.withFetchWord (s : State) (nbits w : Nat) : State := s.present (tableWord nbits w)

end Sys2Proof.Machine
end

