-- ==== Sys2Proof/Machine/Assembler.lean ====
section
/-! DEFINITION. The assembler of request programs (30_encoding.md R84, R85), on the host's side of the
request port: a line of text to the request words it stands for. The spec gives the layout of a line and
the forms of an operand; spaces around operands, and a string without escapes, are this model's reading
(log 14). -/

namespace Sys2Proof.Machine

/-- An operand as the byte it is assembled into; AsmLine.wf has checked that it fits. -/
def asmByte (n : Nat) : Byte := BitVec.ofNat 8 n

/-- `M = {r7, r6, r5, r4, r3, r2, r1, r0}` (R84, R74), from the rows r0 first. -/
def asmBitmap : List Nat → BitVec 64
  | [] => 0
  | r :: rs => (asmBitmap rs <<< 8) ||| (asmByte r).setWidth 64

/-- A request word with operands in A and B. -/
def asmWord (op : Byte) (a b : Nat) : ReqWord := reqWord op (asmByte a) (asmByte b) 0

/-- The request words of a line, the pseudo-instructions expanded (R72, R84, R85). -/
def asmWords : AsmLine → List ReqWord
  | .beginInit => [asmWord 0x01 0 0]
  | .writeCmd v => [asmWord 0x02 v 0]
  | .writeText v => [asmWord 0x03 v 0]
  | .writeCustom s => [asmWord 0x04 s 0]
  | .setCursor l c => [asmWord 0x05 l c]
  | .customChar s r0 r1 r2 r3 r4 r5 r6 r7 =>
    [reqWord 0x06 (asmByte s) 0 (asmBitmap [r0, r1, r2, r3, r4, r5, r6, r7])]
  | .updateConfig => [asmWord 0x07 0 0]
  | .send v rs => [asmWord 0x08 v rs]
  | .setEnMask m => [asmWord 0x09 m 0]
  | .displayOn => [asmWord 0x10 0 0]
  | .displayOff => [asmWord 0x11 0 0]
  | .cursorOn => [asmWord 0x12 0 0]
  | .cursorOff => [asmWord 0x13 0 0]
  | .blinkOn => [asmWord 0x14 0 0]
  | .blinkOff => [asmWord 0x15 0 0]
  | .autoscrollOn => [asmWord 0x16 0 0]
  | .autoscrollOff => [asmWord 0x17 0 0]
  | .leftToRight => [asmWord 0x18 0 0]
  | .rightToLeft => [asmWord 0x19 0 0]
  | .writeString cs => cs.map (fun c => asmWord 0x03 c 0)
  | .clear => [asmWord 0x02 0x01 0]
  | .home => [asmWord 0x02 0x02 0]

/-- "An operand that does not fit its field is an assembly error, and no request is produced" (R84). -/
def assemble (l : AsmLine) : Option (List ReqWord) := if l.wf then some (asmWords l) else none

/-- The requests a line's words decode to; none where the line assembles to nothing. -/
def asmDecoded (l : AsmLine) : Option (List (Except Reject Instr)) :=
  (assemble l).map (List.map fun w => decode (.req88 w))

/-! ### Reading a line of text -/

/-- The value of a digit in the given base. -/
def digitVal (base : Nat) (c : Char) : Option Nat :=
  let n := c.toNat
  let v := if 48 ≤ n ∧ n ≤ 57 then n - 48
    else if 97 ≤ n ∧ n ≤ 102 then n - 87
    else if 65 ≤ n ∧ n ≤ 70 then n - 55
    else 16
  if v < base then some v else none

/-- Reads digits while there are any. -/
def takeDigits (base : Nat) : Nat → List Char → Nat × List Char
  | acc, [] => (acc, [])
  | acc, c :: cs =>
    match digitVal base c with
    | some d => takeDigits base (acc * base + d) cs
    | none => (acc, c :: cs)

/-- Reads a number of at least one digit. -/
def takeNumber (base : Nat) : List Char → Option (Nat × List Char)
  | [] => none
  | c :: cs => (digitVal base c).map (fun d => takeDigits base d cs)

/-- Skips spaces and tabs. -/
def skipBlanks : List Char → List Char
  | [] => []
  | c :: cs => if c.toNat = 32 ∨ c.toNat = 9 then skipBlanks cs else c :: cs

/-- Reads one operand: `'c'`, `0x` hexadecimal, `0b` binary, or decimal (R84). -/
def takeOperand : List Char → Option (Nat × List Char)
  | '\'' :: c :: '\'' :: cs => some (c.toNat, cs)
  | '0' :: 'x' :: cs => takeNumber 16 cs
  | '0' :: 'b' :: cs => takeNumber 2 cs
  | cs => takeNumber 10 cs

/-- Reads comma-separated operands up to the end of the line; the first argument bounds their number. -/
def takeOperands : Nat → List Char → Option (List Nat)
  | 0, _ => none
  | n + 1, cs =>
    match takeOperand (skipBlanks cs) with
    | none => none
    | some (v, rest) =>
      match skipBlanks rest with
      | [] => some [v]
      | ',' :: more => (takeOperands n more).map (fun vs => v :: vs)
      | _ :: _ => none

/-- The operands of a line, none at all included; no line has more than nine (R84). -/
def operandsOf (cs : List Char) : Option (List Nat) :=
  if (skipBlanks cs).isEmpty then some [] else takeOperands 9 cs

/-- The character codes between two double quotes, with only blanks after the second. -/
def stringBody : List Char → Option (List Nat)
  | [] => none
  | c :: cs =>
    if c.toNat = 34 then (if (skipBlanks cs).isEmpty then some [] else none)
    else (stringBody cs).map (fun codes => c.toNat :: codes)

/-- The operand of WRITE_STRING (R85). -/
def stringOperand (cs : List Char) : Option (List Nat) :=
  match skipBlanks cs with
  | [] => none
  | c :: body => if c.toNat = 34 then stringBody body else none

/-- A mnemonic with its operands as a line. -/
def lineOf (mn : List Char) (ops : List Nat) : Option AsmLine :=
  match ops with
  | [] =>
    if mn = "BEGIN".toList then some .beginInit
    else if mn = "UPDATE_CONFIG".toList then some .updateConfig
    else if mn = "DISPLAY_ON".toList then some .displayOn
    else if mn = "DISPLAY_OFF".toList then some .displayOff
    else if mn = "CURSOR_ON".toList then some .cursorOn
    else if mn = "CURSOR_OFF".toList then some .cursorOff
    else if mn = "BLINK_ON".toList then some .blinkOn
    else if mn = "BLINK_OFF".toList then some .blinkOff
    else if mn = "AUTOSCROLL_ON".toList then some .autoscrollOn
    else if mn = "AUTOSCROLL_OFF".toList then some .autoscrollOff
    else if mn = "LEFT_TO_RIGHT".toList then some .leftToRight
    else if mn = "RIGHT_TO_LEFT".toList then some .rightToLeft
    else if mn = "CLEAR".toList then some .clear
    else if mn = "HOME".toList then some .home
    else none
  | [a] =>
    if mn = "WRITE_CMD".toList then some (.writeCmd a)
    else if mn = "WRITE_TEXT".toList then some (.writeText a)
    else if mn = "WRITE_CUSTOM".toList then some (.writeCustom a)
    else if mn = "SET_EN_MASK".toList then some (.setEnMask a)
    else none
  | [a, b] =>
    if mn = "SET_CURSOR".toList then some (.setCursor a b)
    else if mn = "SEND".toList then some (.send a b)
    else none
  | [s, r0, r1, r2, r3, r4, r5, r6, r7] =>
    if mn = "CUSTOM_CHAR".toList then some (.customChar s r0 r1 r2 r3 r4 r5 r6 r7) else none
  | _ => none

/-- The mnemonic a line begins with and what follows it. -/
def splitMnemonic (cs : List Char) : List Char × List Char :=
  let body := skipBlanks cs
  (body.takeWhile (fun c => c.toNat ≠ 32 ∧ c.toNat ≠ 9), body.dropWhile (fun c => c.toNat ≠ 32 ∧ c.toNat ≠ 9))

/-- Reads one line of the assembler syntax (R84, R85). -/
def parseLine (cs : List Char) : Option AsmLine :=
  let p := splitMnemonic cs
  if p.1 = "WRITE_STRING".toList then (stringOperand p.2).map AsmLine.writeString
  else (operandsOf p.2).bind (lineOf p.1)

/-- The request words of one line of text. -/
def assembleText (line : String) : Option (List ReqWord) := (parseLine line.toList).bind assemble

end Sys2Proof.Machine
end

