-- ==== Sys2Proof/Machine/Transport.lean ====
section
/-! DEFINITION. How a `Phase` appears on each transport: 30_encoding.md R81 and R82, 41_bus_framer.md
R136, R137 and R143. The transport itself is outside the model (60_exceptions.md R267). -/

namespace Sys2Proof.Machine

/-- The PARALLEL pins (R81). -/
structure Pins where
  rs  : Bool
  rw  : Bool
  en0 : Bool
  en1 : Bool
  d   : Byte
  deriving DecidableEq, Repr

/-- The pins as the line values drive them (R32, R81). -/
def Lines.pins (l : Lines) : Pins where
  rs  := l.rs
  rw  := l.rw
  en0 := l.en.getLsbD 0
  en1 := l.en.getLsbD 1
  d   := l.d

/-- `controlBits`: bit 0 RS, bit 1 EN0, bit 2 EN1, the rest 0 (R81). -/
def Phase.controlBits (p : Phase) : Byte := (p.en.setWidth 8 <<< 1) ||| bit p.rs

/-- The backpack byte `(d & 0xF0) | (BACKLIGHT << 3) | ((en != 0) << 2) | (0 << 1) | rs` (R82). -/
def Phase.i2cByte (backlight : Bool) (p : Phase) : Byte :=
  (p.d &&& 0xF0#8) ||| (bit backlight <<< 3) ||| (bit (p.en != 0#2) <<< 2) ||| bit p.rs

/-- One call the block makes of its transport. -/
inductive TransportAct where
  /-- `send(controlBits, dataByte)` on PARALLEL (R136). -/
  | send (controlBits dataByte : Byte)
  /-- An addressed write of one byte on I2C (R137). -/
  | i2cWrite (addr : BitVec 7) (byte : Byte)
  deriving DecidableEq, Repr

/-- How one phase reaches the transport (R136, R137). -/
def realise (c : Config) (p : Phase) : TransportAct :=
  match c.transport with
  | .parallel => .send p.controlBits p.d
  | .i2c => .i2cWrite c.i2cAddr (p.i2cByte c.backlight)

/-- What one micro-event does on the transport: only a `Phase` reaches it (00_scope.md R13). -/
def MicroEvent.act (c : Config) : MicroEvent → Option TransportAct
  | .phase p => some (realise c p)
  | .wait _ => none
  | .setInit _ => none

/-- The transport calls of a list of micro-events, in order. -/
def transportActs (c : Config) (es : List MicroEvent) : List TransportAct := es.filterMap (MicroEvent.act c)

end Sys2Proof.Machine
end

