-- ==== Sys2Proof/Machine/Observe.lean ====
section
/-! DEFINITION. Readings of a bus trace (00_scope.md R13): its Enable strobes, the wire instructions they
carry, its counts and its minimum duration. None of them is state of the block. -/

namespace Sys2Proof.Machine

/-- A wire instruction `{RS, byte}` (30_encoding.md R76), or one strobe's `{RS, d}`. -/
structure WireByte where
  rs   : Bool
  byte : Byte
  deriving DecidableEq, Repr

/-- What one micro-event strobes: a `Phase` with an Enable line high is one transaction's strobe phase
(41_bus_framer.md R131, R132). -/
def MicroEvent.strobe : MicroEvent → Option WireByte
  | .phase p => if p.en = 0#2 then none else some { rs := p.rs, byte := p.d }
  | .wait _ => none
  | .setInit _ => none

/-- The strobes of a trace, in order: one per transaction. -/
def strobes (es : List MicroEvent) : List WireByte := es.filterMap MicroEvent.strobe

/-- `(d1 & 0xF0) | ((d2 >> 4) & 0x0F)`, the byte two nibble transactions carry (41_bus_framer.md R138). -/
def recombine (d1 d2 : Byte) : Byte := (d1 &&& 0xF0#8) ||| ((d2 >>> 4) &&& 0x0F#8)

/-- Strobes taken two by two as nibble pairs; a pair carries the RS of its first strobe. -/
def pairNibbles : List WireByte → List WireByte
  | a :: b :: rest => { rs := a.rs, byte := recombine a.byte b.byte } :: pairNibbles rest
  | _ => []

/-- The wire instructions a list of strobes carries on a bus of the given width, where every byte is
sent through `sendByte` (20_memory.md R58). -/
def wireBytes (w : BusWidth) (ss : List WireByte) : List WireByte :=
  match w with
  | .eightBit => ss
  | .fourBit => pairNibbles ss

/-- The wire instructions of a trace of whole bytes. -/
def wires (w : BusWidth) (es : List MicroEvent) : List WireByte := wireBytes w (strobes es)

/-- The lower bound one micro-event adds to the duration (00_scope.md R15). -/
def MicroEvent.minWait : MicroEvent → Nat
  | .phase _ => 0
  | .wait n => n
  | .setInit _ => 0

/-- The sum of the `Wait` lower bounds of a trace in microseconds (60_exceptions.md R268). -/
def totalWait (es : List MicroEvent) : Nat := (es.map MicroEvent.minWait).sum

/-- Is the micro-event a `Phase`? -/
def MicroEvent.isPhase : MicroEvent → Bool
  | .phase _ => true
  | .wait _ => false
  | .setInit _ => false

/-- Is the micro-event a `Wait`? -/
def MicroEvent.isWait : MicroEvent → Bool
  | .phase _ => false
  | .wait _ => true
  | .setInit _ => false

/-- The value a `SetInit` micro-event writes. -/
def MicroEvent.initWrite : MicroEvent → Option InitState
  | .phase _ => none
  | .wait _ => none
  | .setInit i => some i

/-- The number of `Phase` micro-events. -/
def phaseCount (es : List MicroEvent) : Nat := es.countP MicroEvent.isPhase

/-- The number of `Wait` micro-events. -/
def waitCount (es : List MicroEvent) : Nat := es.countP MicroEvent.isWait

/-- The values written to `init_state`, in order. -/
def initWrites (es : List MicroEvent) : List InitState := es.filterMap MicroEvent.initWrite

end Sys2Proof.Machine
end

