-- ==== Sys2Proof/Safety.lean ====
section
/-! DEFINITION. What a good state of the block is, and what a whole request does. The block has no fault
(60_exceptions.md R260), so a safe run is one whose states all meet State.Inv. -/

namespace Sys2Proof.Machine

/-- The strobe contract from the line values `l` on: whenever an Enable line is high before or after a
`Phase`, RS and data do not change with it, Enable never goes from one high value to another, and Enable
is low at the end (41_bus_framer.md R131, R141, R142). -/
def strobesOk : Lines → List MicroEvent → Bool
  | l, [] => l.en == 0#2
  | l, .wait _ :: es => strobesOk l es
  | l, .setInit _ :: es => strobesOk l es
  | l, .phase p :: es =>
    ((l.en == 0#2 && p.en == 0#2) || ((l.en == 0#2 || p.en == 0#2) && p.rs == l.rs && p.d == l.d))
      && strobesOk p.drive es

/-- The data lines a FourBit bus does not wire, `d[3:0]`, are 0 (R134, D11). -/
def lowClear (d : Byte) : Bool := (d &&& 0x0F#8) == 0#8

/-- Every `Phase` of the list has `d[3:0] = 0`. -/
def phasesLowClear (es : List MicroEvent) : Bool :=
  es.all fun e =>
    match e with
    | .phase p => lowClear p.d
    | .wait _ => true
    | .setInit _ => true

/-- The writes of `init_state` that BEGIN makes, in order (42_initialization.md R161). -/
def beginInitWrites : List InitState :=
  [.busWidthProbe, .functionSet, .entryModeSet, .displayControlSet, .ready]

/-- The writes of `init_state` still to come in a BEGIN that has reached `i`; none when no BEGIN is in
progress (10_state.md R26). -/
def remainingInit : InitState → List InitState
  | .uninit => []
  | .busWidthProbe => [.functionSet, .entryModeSet, .displayControlSet, .ready]
  | .functionSet => [.entryModeSet, .displayControlSet, .ready]
  | .entryModeSet => [.displayControlSet, .ready]
  | .displayControlSet => [.ready]
  | .ready => []

/-- No request is in progress. -/
structure State.Idle (s : State) : Prop where
  notBusy : s.busy = false
  noSeq   : s.seq = []

/-- The invariant of the block. -/
structure State.Inv (s : State) : Prop where
  /-- "the field never holds 0b00" (10_state.md R29). -/
  maskNonzero : s.enMask ≠ 0#2
  /-- `busy = 1` exactly when `seq` is non-empty (R30; a `Wait` is one step, log 7). -/
  busySeq     : s.busy = !s.seq.isEmpty
  /-- "`lines.rw` is always 0" (R32, 41_bus_framer.md R143). -/
  writeOnly   : s.lines.rw = false
  /-- What is on the lines and what is still to come keep the strobe contract. -/
  strobes     : strobesOk s.lines s.seq = true
  /-- On FourBit the unwired data lines are 0, now and in everything to come. -/
  upperNibble : s.conf.busWidth = .fourBit → lowClear s.lines.d = true ∧ phasesLowClear s.seq = true
  /-- `init_state` and the writes to come agree: an accepted BEGIN has all five to come, a running one
  those after the state it has reached, and otherwise the block is UNINIT or READY. -/
  initForward : initWrites s.seq = remainingInit s.initState
    ∨ (initWrites s.seq = beginInitWrites ∧ (s.initState = .uninit ∨ s.initState = .ready))

/-- The state when the request in progress has run to its end: every micro-event of `seq` performed and
emitted in order (00_scope.md R13, 10_state.md R31). -/
def State.drained (s : State) : State :=
  s.seq.foldl (fun t e => (t.perform e).emit e) { s with seq := [], busy := false }

/-- A whole request: accepted, then run to its end. -/
def State.served (w : Word) (s : State) : State :=
  match accept w s with
  | .next t => t.drained
  | .fault _ => s
  | .refused _ => s

/-- Whole requests one after the other, in acceptance order (20_memory.md R60). -/
def State.servedAll (ws : List Word) (s : State) : State := ws.foldl (fun t w => t.served w) s

/-- The micro-event lists that requests served one after the other load at their acceptance. -/
def State.acceptedLists : List Word → State → List (List MicroEvent)
  | [], _ => []
  | w :: ws, s =>
    match accept w s with
    | .next t => t.seq :: State.acceptedLists ws t.drained
    | .fault _ => []
    | .refused _ => []

/-- The figure for the configured bus width: FourBit, EightBit (70_reset_and_hazards.md R293). -/
def perWidth (c : Config) (fb eb : Nat) : Nat :=
  match c.busWidth with
  | .fourBit => fb
  | .eightBit => eb

/-- A flag of the staged configuration (10_state.md R34). -/
inductive ConfigFlag where
  | d
  | c
  | b
  | id
  | s
  deriving DecidableEq, Repr

/-- The value of a flag (10_state.md R23 to R28). -/
def DisplayConfig.flag (g : DisplayConfig) : ConfigFlag → Bool
  | .d => g.d
  | .c => g.c
  | .b => g.b
  | .id => g.id
  | .s => g.s

/-- The flag a toggle writes; none for an instruction that is no toggle (45_configuration.md R230). -/
def toggleFlag : Instr → Option ConfigFlag
  | .displayOn => some .d
  | .displayOff => some .d
  | .cursorOn => some .c
  | .cursorOff => some .c
  | .blinkOn => some .b
  | .blinkOff => some .b
  | .autoscrollOn => some .s
  | .autoscrollOff => some .s
  | .leftToRight => some .id
  | .rightToLeft => some .id
  | .beginInit => none
  | .writeCmd _ => none
  | .writeText _ => none
  | .writeCustom _ => none
  | .setCursor _ _ => none
  | .customChar _ _ => none
  | .updateConfig => none
  | .send _ _ => none
  | .setEnMask _ => none
  | .clearDisplay => none
  | .returnHome _ => none
  | .entryModeSet _ _ => none
  | .displayControl _ _ _ => none
  | .cursorDisplayShift _ _ _ => none
  | .functionSet _ _ _ _ => none
  | .setCgramAddr _ => none
  | .setDdramAddr _ => none
  | .writeData _ => none

end Sys2Proof.Machine
end

