-- ==== Sys2Proof/Certificates/Slice0/Obligations.lean ====
section
/-! DEFINITION. The statements for the provers. -/

open Sys2Proof Sys2Proof.Machine

/-! ### Encodings -/

/-- Words written out from 30_encoding.md R70 to R77 and R86 decode to the instruction they stand for. The
OP values are the spec's decision D3, the wire byte values its general knowledge G1 (log 12). -/
def Obligations.WrittenOutWordsDecode : Prop :=
  decode (.req88 0x0100000000000000000000#88) = .ok .beginInit
  ∧ decode (.req88 0x0341000000000000000000#88) = .ok (.writeText 0x41#8)
  ∧ decode (.req88 0x0501030000000000000000#88) = .ok (.setCursor 1#8 3#8)
  ∧ decode (.req88 0x0602000807060504030201#88) = .ok (.customChar 2#8 0x0807060504030201#64)
  ∧ decode (.req88 0x0801000000000000000000#88) = .ok (.send 0x01#8 false)
  ∧ decode (.req88 0x1200000000000000000000#88) = .ok .cursorOn
  ∧ decode (.req88 0x0AFFFFFFFFFFFFFFFFFFFF#88) = .error (.reservedOp 0x0A#8)
  ∧ decode (.wire9 0b000000001#9) = .ok .clearDisplay
  ∧ decode (.wire9 0b000000110#9) = .ok (.entryModeSet true false)
  ∧ decode (.wire9 0b000111000#9) = .ok (.functionSet true true false 0#2)
  ∧ decode (.wire9 0b011000011#9) = .ok (.setDdramAddr 0x43#7)
  ∧ decode (.wire9 0b101000001#9) = .ok (.writeData 0x41#8)

/-- For every instruction, decoding its encoding gives it back, with every operand at every value. -/
def Obligations.DecodeEncodeRoundTrip : Prop := ∀ i : Instr, decode (encode i) = .ok i

/-- Operands are read as the bits stand and unnamed fields are ignored (30_encoding.md R72, R73, R74;
decisions D3 and D5). -/
def Obligations.RequestFieldsReadAsTheyStand : Prop :=
  ∀ (a b : Byte) (m : BitVec 64),
    decode (.req88 (reqWord 0x01 a b m)) = .ok .beginInit
    ∧ decode (.req88 (reqWord 0x02 a b m)) = .ok (.writeCmd a)
    ∧ decode (.req88 (reqWord 0x03 a b m)) = .ok (.writeText a)
    ∧ decode (.req88 (reqWord 0x04 a b m)) = .ok (.writeCustom a)
    ∧ decode (.req88 (reqWord 0x05 a b m)) = .ok (.setCursor a b)
    ∧ decode (.req88 (reqWord 0x06 a b m)) = .ok (.customChar a m)
    ∧ decode (.req88 (reqWord 0x07 a b m)) = .ok .updateConfig
    ∧ decode (.req88 (reqWord 0x08 a b m)) = .ok (.send a (b.getLsbD 0))
    ∧ decode (.req88 (reqWord 0x09 a b m)) = .ok (.setEnMask (a.extractLsb' 0 2))
    ∧ decode (.req88 (reqWord 0x10 a b m)) = .ok .displayOn
    ∧ decode (.req88 (reqWord 0x11 a b m)) = .ok .displayOff
    ∧ decode (.req88 (reqWord 0x12 a b m)) = .ok .cursorOn
    ∧ decode (.req88 (reqWord 0x13 a b m)) = .ok .cursorOff
    ∧ decode (.req88 (reqWord 0x14 a b m)) = .ok .blinkOn
    ∧ decode (.req88 (reqWord 0x15 a b m)) = .ok .blinkOff
    ∧ decode (.req88 (reqWord 0x16 a b m)) = .ok .autoscrollOn
    ∧ decode (.req88 (reqWord 0x17 a b m)) = .ok .autoscrollOff
    ∧ decode (.req88 (reqWord 0x18 a b m)) = .ok .leftToRight
    ∧ decode (.req88 (reqWord 0x19 a b m)) = .ok .rightToLeft

/-- A request word decodes to a request exactly when its OP is 0x01..0x09 or 0x10..0x19, and is rejected
as reserved otherwise; it never decodes to a wire instruction (30_encoding.md R72, R75; 00_scope.md R19;
decisions D3 and D4). -/
def Obligations.RequestWordsByOpValue : Prop :=
  ∀ w : ReqWord,
    (((0x01 ≤ (opField w).toNat ∧ (opField w).toNat ≤ 0x09)
        ∨ (0x10 ≤ (opField w).toNat ∧ (opField w).toNat ≤ 0x19))
      → ∃ i, decode (.req88 w) = .ok i ∧ i.isRequest = true)
    ∧ (((opField w).toNat = 0x00 ∨ (0x0A ≤ (opField w).toNat ∧ (opField w).toNat ≤ 0x0F)
        ∨ 0x1A ≤ (opField w).toNat)
      → decode (.req88 w) = .error (.reservedOp (opField w)))

/-- Every 9-bit word but 0 0000 0000 is exactly one wire instruction: it decodes, to no request, and
encoding that instruction gives the word back, don't-care bits included (30_encoding.md R76, R77; the map
is the spec's general knowledge, log 12). -/
def Obligations.WireWordsAreTheCommandMap : Prop :=
  ∀ w : WireWord, w ≠ 0#9 → ∃ i, decode (.wire9 w) = .ok i ∧ i.isRequest = false ∧ encode i = .wire9 w

/-! ### Bus Framer -/

/-- A transaction is Enable low, high for the hold, low, with RS and data held, and the optional address
set-up wait (41_bus_framer.md R131; decisions D7 and D36). -/
def Obligations.TransactionIsLowHighLow : Prop :=
  ∀ (c : Config) (m : BitVec 2) (rs : Bool) (d : Byte),
    (c.timing.tAs = 0 → tx c m rs d =
      [.phase ⟨rs, 0#2, d⟩, .phase ⟨rs, m, d⟩, .wait c.timing.tPweh, .phase ⟨rs, 0#2, d⟩])
    ∧ (0 < c.timing.tAs → tx c m rs d =
      [.phase ⟨rs, 0#2, d⟩, .wait c.timing.tAs, .phase ⟨rs, m, d⟩, .wait c.timing.tPweh,
        .phase ⟨rs, 0#2, d⟩])

/-- 41_bus_framer.md R132: within a transaction a line whose mask bit is 1 rises and falls and a line whose
mask bit is 0 stays low; the setup and hold-off phases have `en = 0b00`; and in every instruction's
micro-event list an Enable value is 0b00 or `EN_MASK`. -/
def Obligations.EnableLinesFollowMask : Prop :=
  (∀ (c : Config) (m : BitVec 2) (rs : Bool) (d : Byte),
    ((tx c m rs d).filterMap fun e => match e with
      | .phase p => some p.en
      | .wait _ => none
      | .setInit _ => none) = [0#2, m, 0#2]
    ∧ ∀ k, k < 2 →
      ((tx c m rs d).filterMap fun e => match e with
        | .phase p => some (p.en.getLsbD k)
        | .wait _ => none
        | .setInit _ => none) = [false, m.getLsbD k, false])
  ∧ ∀ (i : Instr) (s : State), ∃ t, exec i s = .next t
      ∧ ∀ p : Phase, MicroEvent.phase p ∈ t.seq → p.en = 0#2 ∨ p.en = t.enMask

/-- 41_bus_framer.md R133: on EightBit a byte is one transaction carrying it unmodified, then the
post-transaction delay. -/
def Obligations.EightBitByteIsOneTransaction : Prop :=
  ∀ (c : Config) (m : BitVec 2) (v : Byte) (rs : Bool), c.busWidth = .eightBit →
    sendByte c m v rs = tx c m rs v ++ [postDelay c rs]
    ∧ (c.timing = {} → sendByte c m 0x41#8 true = tx c m true 0x41#8 ++ [.wait 2])

/-- 20_memory.md R55: on FourBit two transactions with the same RS, the high nibble first in `d[7:4]`, then
the low nibble in `d[7:4]`; on EightBit one transaction with bit i on line Di. -/
def Obligations.HighNibbleFirst : Prop :=
  ∀ (c : Config) (m : BitVec 2) (v : Byte) (rs : Bool),
    (c.busWidth = .fourBit → ∃ h l : Byte,
      sendByte c m v rs = tx c m rs h ++ tx c m rs l ++ [postDelay c rs]
      ∧ (∀ k, k < 4 → h.getLsbD (4 + k) = v.getLsbD (4 + k))
      ∧ (∀ k, k < 4 → l.getLsbD (4 + k) = v.getLsbD k))
    ∧ (c.busWidth = .eightBit → ∃ d : Byte,
      sendByte c m v rs = tx c m rs d ++ [postDelay c rs] ∧ ∀ k, k < 8 → d.getLsbD k = v.getLsbD k)

/-- Nibble recombination (41_bus_framer.md R138, an inference the spec marks as derived from R133 and
R134; the zero low nibble is decision D11). -/
def Obligations.NibblesRecombine : Prop :=
  ∀ (c : Config) (m : BitVec 2) (v : Byte) (rs : Bool), m ≠ 0#2 →
    (c.busWidth = .fourBit → ∃ d1 d2 : Byte,
      strobes (sendByte c m v rs) = [⟨rs, d1⟩, ⟨rs, d2⟩]
      ∧ (d1 &&& 0xF0#8) ||| ((d2 >>> 4) &&& 0x0F#8) = v
      ∧ d1 &&& 0x0F#8 = 0#8 ∧ d2 &&& 0x0F#8 = 0#8)
    ∧ (c.busWidth = .eightBit → strobes (sendByte c m v rs) = [⟨rs, v⟩])

/-- The post-transaction delay and the long delay: 2 µs class after data, 40 µs class after a command, and
`T_LONG` besides exactly after 0x01, 0x02 and 0x03 (41_bus_framer.md R135, R139; decisions D7, D8, D9). -/
def Obligations.DelaysAfterAByte : Prop :=
  ∀ (c : Config) (m : BitVec 2) (v : Byte),
    sendByte c m v true = byteFrames c m v true ++ [.wait c.timing.tPostData]
    ∧ sendByte c m v false = byteFrames c m v false ++ [.wait c.timing.tPostCmd]
    ∧ ((v = 0x01#8 ∨ v = 0x02#8 ∨ v = 0x03#8) →
        sendCmd c m v = sendByte c m v false ++ [.wait c.timing.tLong])
    ∧ (¬ (v = 0x01#8 ∨ v = 0x02#8 ∨ v = 0x03#8) → sendCmd c m v = sendByte c m v false)

/-- Trace sizes with `T_AS = 0` (41_bus_framer.md R144, derived from R131, R133, R134 and R139). -/
def Obligations.FramingTraceSizes : Prop :=
  ∀ (c : Config) (m : BitVec 2) (v : Byte) (rs : Bool), c.timing.tAs = 0 →
    phaseCount (tx c m rs v) = 3 ∧ waitCount (tx c m rs v) = 1
    ∧ (c.busWidth = .eightBit →
        phaseCount (sendByte c m v rs) = 3 ∧ waitCount (sendByte c m v rs) = 2)
    ∧ (c.busWidth = .fourBit →
        phaseCount (sendByte c m v rs) = 6 ∧ waitCount (sendByte c m v rs) = 3)
    ∧ (isLong v = true →
        phaseCount (sendCmd c m v) = phaseCount (sendByte c m v false)
        ∧ waitCount (sendCmd c m v) = waitCount (sendByte c m v false) + 1)

/-! ### Command Encoder -/

/-- The command bytes as bit patterns (40_command_encoder.md R101 to R107, R110, R111, R113; the values are
the spec's general knowledge, log 12). -/
def Obligations.CommandBytesAreTheMap : Prop :=
  encClear = 0b00000001#8 ∧ encHome = 0b00000010#8
  ∧ (∀ id es, encEntry id es = 0b000001#6 ++ BitVec.ofBool id ++ BitVec.ofBool es)
  ∧ (∀ d c b, encDisplay d c b = 0b00001#5 ++ BitVec.ofBool d ++ BitVec.ofBool c ++ BitVec.ofBool b)
  ∧ (∀ sc rl, encShift sc rl = 0b0001#4 ++ BitVec.ofBool sc ++ BitVec.ofBool rl ++ 0b00#2)
  ∧ (∀ dl n f, encFunction dl n f =
      0b001#3 ++ BitVec.ofBool dl ++ BitVec.ofBool n ++ BitVec.ofBool f ++ 0b00#2)
  ∧ (∀ a : Byte, encCgram a = 0b01#2 ++ a.extractLsb' 0 6)
  ∧ pProbe = 0x30#8 ∧ pSwitch4 = 0x20#8
  ∧ encEntry true false = 0x06#8 ∧ encDisplay true false false = 0x0C#8

/-- The function-set byte of the configuration (40_command_encoder.md R112; decision D14). -/
def Obligations.FunctionSetByteOfConfiguration : Prop :=
  ∀ c : Config,
    (c.busWidth = .fourBit → 2 ≤ c.lines → c.font5x10 = false → functionSetByte c = 0x28#8)
    ∧ (c.busWidth = .fourBit → c.lines = 1 → c.font5x10 = false → functionSetByte c = 0x20#8)
    ∧ (c.busWidth = .fourBit → c.lines = 1 → c.font5x10 = true → functionSetByte c = 0x24#8)
    ∧ (c.busWidth = .eightBit → 2 ≤ c.lines → c.font5x10 = false → functionSetByte c = 0x38#8)
    ∧ (c.busWidth = .eightBit → c.lines = 1 → c.font5x10 = false → functionSetByte c = 0x30#8)
    ∧ (functionSetByte c).getLsbD 4 = decide (c.busWidth = .eightBit)
    ∧ (functionSetByte c).getLsbD 3 = decide (2 ≤ c.lines)
    ∧ (functionSetByte c).getLsbD 2 = c.font5x10

/-- 40_command_encoder.md R108: SET_DDRAM_ADDR is the value itself, and under a well-formed configuration
every in-range cursor gives a value with bit 7 set, so SET_CURSOR always emits a SET_DDRAM_ADDR
instruction. -/
def Obligations.CursorByteSetsDdramAddress : Prop :=
  (∀ v : Byte, encDdram v = v)
  ∧ (∀ (line column : Byte) (s : State) (base : Byte), s.conf.wf = true →
      line.toNat < s.conf.lines → column.toNat < s.conf.columns →
      s.conf.lineBase[line.toNat]? = some base →
      (base + column).getLsbD 7 = true
      ∧ decode (.wire9 (wireWord false (base + column))) =
          .ok (.setDdramAddr ((base + column).extractLsb' 0 7))
      ∧ exec (.setCursor line column) s =
          .next { s with seq := sendCmd s.conf s.enMask (encDdram (base + column)), busy := true })
  ∧ ∀ c : Config, c.lineBase[1]? = some 0xC0#8 → encDdram (cursorByte c 1#8 3#8) = 0xC3#8

/-- The CGRAM address of a slot is the slot times 8, a multiple of 8 in 0..56 (44_cursor_and_glyph.md R213,
derived from R212 and R107). -/
def Obligations.GlyphAddressIsSlotTimesEight : Prop :=
  ∀ slot : Byte, slot.toNat < 8 →
    (cgramAddress slot).toNat = 8 * slot.toNat ∧ (cgramAddress slot).toNat ≤ 56
    ∧ encCgram (cgramAddress slot) = 0x40#8 ||| (slot <<< 3)

/-! ### Requests: SEND and the writes -/

/-- SEND (41_bus_framer.md R140; decision D29): the byte through the framer with no long delay; nothing
else changes at acceptance. -/
def Obligations.SendFramesTheRawByte : Prop :=
  ∀ (v : Byte) (rs : Bool) (s : State), exec (.send v rs) s =
    .next { s with
      seq := byteFrames s.conf s.enMask v rs
        ++ [.wait (if rs then s.conf.timing.tPostData else s.conf.timing.tPostCmd)],
      busy := true }

/-- WRITE_CMD (43_write.md R190; decisions D9 and D10): the byte as a command, with the long delay exactly
for 0x01, 0x02 and 0x03; `cfg` and every other field stay. -/
def Obligations.WriteCmdSendsTheCommand : Prop :=
  ∀ (v : Byte) (s : State),
    ((v = 0x01#8 ∨ v = 0x02#8 ∨ v = 0x03#8) → exec (.writeCmd v) s =
      .next { s with
        seq := byteFrames s.conf s.enMask v false ++ [.wait s.conf.timing.tPostCmd, .wait s.conf.timing.tLong],
        busy := true })
    ∧ (¬ (v = 0x01#8 ∨ v = 0x02#8 ∨ v = 0x03#8) → exec (.writeCmd v) s =
      .next { s with
        seq := byteFrames s.conf s.enMask v false ++ [.wait s.conf.timing.tPostCmd], busy := true })

/-- WRITE_TEXT (43_write.md R191; decision D32): the code as a data byte, whatever its value and whatever
`init_state` is. -/
def Obligations.WriteTextSendsTheCode : Prop :=
  ∀ (c : Byte) (s : State), exec (.writeText c) s =
    .next { s with
      seq := byteFrames s.conf s.enMask c true ++ [.wait s.conf.timing.tPostData], busy := true }

/-- 43_write.md R192: WRITE_CUSTOM sends a slot below 8 as a data byte, and for a slot of 8 or more nothing
is emitted and the request completes at acceptance. -/
def Obligations.WriteCustomSendsASlotBelowEight : Prop :=
  (∀ (a b : Byte) (m : BitVec 64), decode (.req88 (reqWord 0x04 a b m)) = .ok (.writeCustom a))
  ∧ ∀ (slot : Byte) (s : State),
    (slot.toNat < 8 → exec (.writeCustom slot) s =
      .next { s with seq := sendByte s.conf s.enMask slot true, busy := true })
    ∧ (8 ≤ slot.toNat → exec (.writeCustom slot) s = .next { s with seq := [], busy := false })
    ∧ (s.conf.busWidth = .eightBit → s.conf.timing = {} → exec (.writeCustom 3#8) s =
      .next { s with seq := tx s.conf s.enMask true 0x03#8 ++ [.wait 2], busy := true })

/-- 43_write.md R194 (derived from R191 and R85): a text of n characters emits exactly n data instructions,
one per character in order, and no command between them; the block is then idle again. The queue of
presented words is the model's (log 3). `wires` pairs FourBit strobes and looks neither at the RS of a
pair's second strobe nor at a lone last one, so the strobes themselves are stated too. -/
def Obligations.TextEmitsItsCodesInOrder : Prop :=
  ∀ (cs : List Byte) (s : State), s.conf.wf = true → s.Idle → s.enMask ≠ 0#2 →
    s.inputs = cs.map (fun c => .word (encode (.writeText c))) →
    ∃ (n : Nat) (t : State), Sys2Proof.core.run n s = .next t ∧ t.Idle ∧ t.inputs = []
      ∧ t.cfg = s.cfg ∧ t.enMask = s.enMask ∧ t.initState = s.initState
      ∧ ∃ es, t.trace = s.trace ++ es ∧ wires s.conf.busWidth es = cs.map (fun c => ⟨true, c⟩)
        ∧ (s.conf.busWidth = .eightBit → strobes es = cs.map fun c => ⟨true, c⟩)
        ∧ (s.conf.busWidth = .fourBit →
            strobes es = cs.flatMap fun c => [⟨true, c &&& 0xF0#8⟩, ⟨true, c <<< 4⟩])

/-! ### Requests: cursor and glyph -/

/-- 44_cursor_and_glyph.md R210: SET_CURSOR with both operands in range sends `(LINE_BASE[A] + B) mod 256`
as a command that is never of the long-delay class; out of range it emits nothing and completes at
acceptance. -/
def Obligations.SetCursorInAndOutOfRange : Prop :=
  (∀ (a b : Byte) (m : BitVec 64), decode (.req88 (reqWord 0x05 a b m)) = .ok (.setCursor a b))
  ∧ ∀ (line column : Byte) (s : State), s.conf.wf = true →
    (line.toNat < s.conf.lines → column.toNat < s.conf.columns →
      ∃ base : Byte, s.conf.lineBase[line.toNat]? = some base
        ∧ 0x80 ≤ (base + column).toNat
        ∧ isLong (BitVec.ofNat 8 ((base.toNat + column.toNat) % 256)) = false
        ∧ exec (.setCursor line column) s = .next { s with
            seq := sendByte s.conf s.enMask (BitVec.ofNat 8 ((base.toNat + column.toNat) % 256)) false,
            busy := true })
    ∧ (¬ (line.toNat < s.conf.lines ∧ column.toNat < s.conf.columns) →
      exec (.setCursor line column) s = .next { s with seq := [], busy := false })
    ∧ (s.conf.columns = 16 → s.conf.lineBase = [0x80#8, 0xC0#8] →
      exec (.setCursor 1#8 3#8) s =
        .next { s with seq := sendByte s.conf s.enMask 0xC3#8 false, busy := true }
      ∧ exec (.setCursor 2#8 0#8) s = .next { s with seq := [], busy := false })

/-- The cursor property (44_cursor_and_glyph.md R215, derived from R210): exactly one wire instruction,
the command `LINE_BASE[l] + c` with no wrap, or none. -/
def Obligations.SetCursorWireInstruction : Prop :=
  ∀ (line column : Byte) (s : State), s.conf.wf = true → s.enMask ≠ 0#2 →
    (line.toNat < s.conf.lines → column.toNat < s.conf.columns →
      ∃ (base : Byte) (t : State), s.conf.lineBase[line.toNat]? = some base
        ∧ exec (.setCursor line column) s = .next t
        ∧ (base + column).toNat = base.toNat + column.toNat
        ∧ wires s.conf.busWidth t.seq = [⟨false, base + column⟩])
    ∧ (¬ (line.toNat < s.conf.lines ∧ column.toNat < s.conf.columns) →
      ∃ t, exec (.setCursor line column) s = .next t ∧ wires s.conf.busWidth t.seq = [])

/-- CUSTOM_CHAR (44_cursor_and_glyph.md R212; the unmasked rows are decision D28): the CGRAM address
command, the 8 rows unmodified as data, then Return-Home; for a slot of 8 or more only Return-Home. -/
def Obligations.CustomCharSequence : Prop :=
  ∀ (slot : Byte) (m : BitVec 64) (s : State),
    (slot.toNat < 8 → exec (.customChar slot m) s = .next { s with
      seq := sendCmd s.conf s.enMask (0x40#8 ||| (slot <<< 3))
        ++ sendByte s.conf s.enMask (m.extractLsb' 0 8) true
        ++ sendByte s.conf s.enMask (m.extractLsb' 8 8) true
        ++ sendByte s.conf s.enMask (m.extractLsb' 16 8) true
        ++ sendByte s.conf s.enMask (m.extractLsb' 24 8) true
        ++ sendByte s.conf s.enMask (m.extractLsb' 32 8) true
        ++ sendByte s.conf s.enMask (m.extractLsb' 40 8) true
        ++ sendByte s.conf s.enMask (m.extractLsb' 48 8) true
        ++ sendByte s.conf s.enMask (m.extractLsb' 56 8) true
        ++ sendCmd s.conf s.enMask 0x02#8,
      busy := true })
    ∧ (8 ≤ slot.toNat → exec (.customChar slot m) s =
      .next { s with seq := sendCmd s.conf s.enMask 0x02#8, busy := true })

/-- The glyph property (44_cursor_and_glyph.md R216, derived from R212): exactly 10 wire instructions for a
slot below 8, exactly one otherwise. -/
def Obligations.CustomCharWireInstructions : Prop :=
  ∀ (slot : Byte) (m : BitVec 64) (s : State), s.enMask ≠ 0#2 →
    (slot.toNat < 8 → ∃ t, exec (.customChar slot m) s = .next t
      ∧ wires s.conf.busWidth t.seq =
        [⟨false, 0x40#8 ||| (slot <<< 3)⟩,
          ⟨true, m.extractLsb' 0 8⟩, ⟨true, m.extractLsb' 8 8⟩, ⟨true, m.extractLsb' 16 8⟩,
          ⟨true, m.extractLsb' 24 8⟩, ⟨true, m.extractLsb' 32 8⟩, ⟨true, m.extractLsb' 40 8⟩,
          ⟨true, m.extractLsb' 48 8⟩, ⟨true, m.extractLsb' 56 8⟩, ⟨false, 0x02#8⟩])
    ∧ (8 ≤ slot.toNat → ∃ t, exec (.customChar slot m) s = .next t
      ∧ wires s.conf.busWidth t.seq = [⟨false, 0x02#8⟩])

/-! ### Requests: configuration -/

/-- 45_configuration.md R231 to R236: each display-control toggle writes its bit and nothing else, changes
nothing when the bit already has the value, and the examples of the rules hold from reset. -/
def Obligations.DisplayControlToggles : Prop :=
  (∀ (a b : Byte) (m : BitVec 64),
    decode (.req88 (reqWord 0x10 a b m)) = .ok .displayOn ∧ decode (.req88 (reqWord 0x11 a b m)) = .ok .displayOff
    ∧ decode (.req88 (reqWord 0x12 a b m)) = .ok .cursorOn ∧ decode (.req88 (reqWord 0x13 a b m)) = .ok .cursorOff
    ∧ decode (.req88 (reqWord 0x14 a b m)) = .ok .blinkOn ∧ decode (.req88 (reqWord 0x15 a b m)) = .ok .blinkOff)
  ∧ (∀ s : State,
    exec .displayOn s = .next { s with cfg := { s.cfg with d := true }, seq := [], busy := false }
    ∧ exec .displayOff s = .next { s with cfg := { s.cfg with d := false }, seq := [], busy := false }
    ∧ exec .cursorOn s = .next { s with cfg := { s.cfg with c := true }, seq := [], busy := false }
    ∧ exec .cursorOff s = .next { s with cfg := { s.cfg with c := false }, seq := [], busy := false }
    ∧ exec .blinkOn s = .next { s with cfg := { s.cfg with b := true }, seq := [], busy := false }
    ∧ exec .blinkOff s = .next { s with cfg := { s.cfg with b := false }, seq := [], busy := false })
  ∧ (∀ s : State, s.Idle →
    (s.cfg.d = true → exec .displayOn s = .next s) ∧ (s.cfg.d = false → exec .displayOff s = .next s)
    ∧ (s.cfg.c = true → exec .cursorOn s = .next s) ∧ (s.cfg.c = false → exec .cursorOff s = .next s)
    ∧ (s.cfg.b = true → exec .blinkOn s = .next s) ∧ (s.cfg.b = false → exec .blinkOff s = .next s))
  ∧ (∀ c : Config,
    ((State.resetWith c).served (encode .displayOn)).cfg.d = true
    ∧ ((State.resetWith c).served (encode .cursorOff)).cfg.c = false
    ∧ ((State.resetWith c).servedAll [encode .blinkOn, encode .blinkOff]).cfg.b = false
    ∧ wires c.busWidth ((State.resetWith c).servedAll [encode .displayOff, encode .updateConfig]).trace
        = [⟨false, 0x08#8⟩, ⟨false, 0x06#8⟩]
    ∧ wires c.busWidth ((State.resetWith c).servedAll [encode .cursorOn, encode .updateConfig]).trace
        = [⟨false, 0x0E#8⟩, ⟨false, 0x06#8⟩]
    ∧ wires c.busWidth ((State.resetWith c).servedAll [encode .blinkOn, encode .updateConfig]).trace
        = [⟨false, 0x0D#8⟩, ⟨false, 0x06#8⟩])

/-- 45_configuration.md R237 and R238: the auto-scroll toggles. -/
def Obligations.AutoscrollToggles : Prop :=
  (∀ (a b : Byte) (m : BitVec 64),
    decode (.req88 (reqWord 0x16 a b m)) = .ok .autoscrollOn
    ∧ decode (.req88 (reqWord 0x17 a b m)) = .ok .autoscrollOff)
  ∧ (∀ s : State,
    exec .autoscrollOn s = .next { s with cfg := { s.cfg with s := true }, seq := [], busy := false }
    ∧ exec .autoscrollOff s = .next { s with cfg := { s.cfg with s := false }, seq := [], busy := false })
  ∧ (∀ s : State, s.Idle →
    (s.cfg.s = true → exec .autoscrollOn s = .next s)
    ∧ (s.cfg.s = false → exec .autoscrollOff s = .next s))
  ∧ (∀ c : Config,
    ((State.resetWith c).served (encode .autoscrollOff)).cfg.s = false
    ∧ wires c.busWidth ((State.resetWith c).servedAll [encode .autoscrollOn, encode .updateConfig]).trace
        = [⟨false, 0x0C#8⟩, ⟨false, 0x07#8⟩])

/-- The direction toggles (45_configuration.md R239, R240; the polarity is decision D3 and general
knowledge). -/
def Obligations.DirectionToggles : Prop :=
  (∀ s : State,
    exec .leftToRight s = .next { s with cfg := { s.cfg with id := true }, seq := [], busy := false }
    ∧ exec .rightToLeft s = .next { s with cfg := { s.cfg with id := false }, seq := [], busy := false })
  ∧ (∀ s : State, s.Idle →
    (s.cfg.id = true → exec .leftToRight s = .next s)
    ∧ (s.cfg.id = false → exec .rightToLeft s = .next s))
  ∧ (∀ c : Config,
    ((State.resetWith c).servedAll [encode .rightToLeft, encode .leftToRight]).cfg.id = true
    ∧ wires c.busWidth ((State.resetWith c).servedAll [encode .rightToLeft, encode .updateConfig]).trace
        = [⟨false, 0x0C#8⟩, ⟨false, 0x04#8⟩])

/-- 45_configuration.md R230, the template of the ten toggles: the word's operands are ignored; the list is
empty and the request completes at acceptance; exactly one `cfg` bit is written, to one value whatever the
state was, and nothing else; it works in any `init_state`; its effect reaches the wire only through
UPDATE_CONFIG; and a BEGIN accepted after it discards it. -/
def Obligations.TogglesFollowTheirTemplate : Prop :=
  (∀ w w' : ReqWord, 0x10 ≤ (opField w).toNat → (opField w).toNat ≤ 0x19 → opField w' = opField w →
    ∃ i, decode (.req88 w) = .ok i ∧ decode (.req88 w') = .ok i ∧ (toggleFlag i).isSome = true)
  ∧ ∀ (i : Instr) (f : ConfigFlag), toggleFlag i = some f → ∃ v : Bool, ∀ s : State,
    ∃ t, exec i s = .next t
      ∧ t = { s with cfg := t.cfg, seq := [], busy := false }
      ∧ t.cfg.flag f = v ∧ (∀ g, g ≠ f → t.cfg.flag g = s.cfg.flag g)
      ∧ (∀ k, exec i { s with initState := k } = .next { t with initState := k })
      ∧ (∀ j : Instr, j ≠ .updateConfig →
          ∃ u v, exec j s = .next u ∧ exec j t = .next v ∧ u.seq = v.seq)
      ∧ exec .beginInit t = exec .beginInit s

/-- Toggle laws (45_configuration.md R241, derived from R231 to R240): idempotent; toggles of different
flags commute; of two toggles of one flag the later wins. -/
def Obligations.ToggleLaws : Prop :=
  (∀ (i : Instr) (s : State), (toggleFlag i).isSome = true →
    ∃ t, exec i s = .next t ∧ exec i t = .next t)
  ∧ (∀ (i j : Instr) (s : State), (toggleFlag i).isSome = true → (toggleFlag j).isSome = true →
    toggleFlag i ≠ toggleFlag j →
    ∃ t u v, exec i s = .next t ∧ exec j s = .next u ∧ exec j t = .next v ∧ exec i u = .next v)
  ∧ (∀ (i j : Instr) (s : State), (toggleFlag i).isSome = true → toggleFlag i = toggleFlag j →
    ∃ t, exec i s = .next t ∧ exec j t = exec j s)

/-- UPDATE_CONFIG (45_configuration.md R242; decision D16): the display-control byte, then the entry-mode
byte, from `cfg` at acceptance; `cfg` is not written. -/
def Obligations.UpdateConfigSequence : Prop :=
  ∀ s : State, exec .updateConfig s = .next { s with
    seq := sendCmd s.conf s.enMask (encDisplay s.cfg.d s.cfg.c s.cfg.b)
      ++ sendCmd s.conf s.enMask (encEntry s.cfg.id s.cfg.s),
    busy := true }

/-- After any number of toggles UPDATE_CONFIG emits exactly two wire instructions, and the toggles
themselves emitted nothing (45_configuration.md R242, R230). -/
def Obligations.TogglesThenUpdateEmitTwoBytes : Prop :=
  ∀ (ts : List Instr) (s : State), (∀ i ∈ ts, (toggleFlag i).isSome = true) → s.Idle →
    s.enMask ≠ 0#2 →
    (s.servedAll (ts.map encode)).trace = s.trace
    ∧ ∃ u, exec .updateConfig (s.servedAll (ts.map encode)) = .next u
      ∧ wires s.conf.busWidth u.seq =
        [⟨false, encDisplay u.cfg.d u.cfg.c u.cfg.b⟩, ⟨false, encEntry u.cfg.id u.cfg.s⟩]

/-- SET_EN_MASK (45_configuration.md R243; ignoring 0b00 is decision D19). -/
def Obligations.SetEnMaskWritesALegalMask : Prop :=
  ∀ (m : BitVec 2) (s : State),
    (m ≠ 0#2 → exec (.setEnMask m) s = .next { s with enMask := m, seq := [], busy := false })
    ∧ (m = 0#2 → exec (.setEnMask m) s = .next { s with seq := [], busy := false })

/-! ### BEGIN -/

/-- BEGIN (42_initialization.md R160, R167; decisions D12, D13, D15, D16, D17): the defaults are written at
acceptance, and the list is exactly that of the rule. -/
def Obligations.BeginSequence : Prop :=
  ∀ s : State, exec .beginInit s = .next { s with
    cfg := { d := true, c := false, b := false, id := true, s := false },
    seq := [.setInit .busWidthProbe, .wait s.conf.timing.tPowerup]
      ++ (tx s.conf s.enMask false 0x30#8 ++ [.wait s.conf.timing.tProbe1])
      ++ (tx s.conf s.enMask false 0x30#8 ++ [.wait s.conf.timing.tProbe2])
      ++ (tx s.conf s.enMask false 0x30#8 ++ [.wait s.conf.timing.tProbe3])
      ++ (if s.conf.busWidth = .fourBit
          then tx s.conf s.enMask false 0x20#8 ++ [.wait s.conf.timing.tSwitch4] else [])
      ++ [.setInit .functionSet]
      ++ sendCmd s.conf s.enMask (functionSetByte s.conf)
      ++ sendCmd s.conf s.enMask 0x01#8
      ++ sendCmd s.conf s.enMask 0x02#8
      ++ [.setInit .entryModeSet] ++ sendCmd s.conf s.enMask 0x06#8
      ++ [.setInit .displayControlSet] ++ sendCmd s.conf s.enMask 0x0C#8
      ++ [.setInit .ready],
    busy := true }

/-- The order of BEGIN's strobes (42_initialization.md R172, derived from R160 to R168): the probes and the
switch as single strobes, then the five bytes at the configured width. No data-class instruction occurs. -/
def Obligations.BeginStrobeOrder : Prop :=
  ∀ s : State, s.enMask ≠ 0#2 → ∃ t, exec .beginInit s = .next t
    ∧ (s.conf.busWidth = .eightBit → strobes t.seq =
        [⟨false, 0x30#8⟩, ⟨false, 0x30#8⟩, ⟨false, 0x30#8⟩, ⟨false, functionSetByte s.conf⟩,
          ⟨false, 0x01#8⟩, ⟨false, 0x02#8⟩, ⟨false, 0x06#8⟩, ⟨false, 0x0C#8⟩])
    ∧ (s.conf.busWidth = .fourBit → ∃ rest,
        strobes t.seq = [⟨false, 0x30#8⟩, ⟨false, 0x30#8⟩, ⟨false, 0x30#8⟩, ⟨false, 0x20#8⟩] ++ rest
        ∧ rest.length = 10
        ∧ pairNibbles rest = [⟨false, functionSetByte s.conf⟩, ⟨false, 0x01#8⟩, ⟨false, 0x02#8⟩,
            ⟨false, 0x06#8⟩, ⟨false, 0x0C#8⟩])

/-- Size and minimum duration of BEGIN with the default timing (42_initialization.md R171, derived; the
five SetInit are C11 of 90_conflicts.md). -/
def Obligations.BeginSizeAndDuration : Prop :=
  ∀ s : State, s.conf.timing = {} → ∃ t, exec .beginInit s = .next t
    ∧ initWrites t.seq =
        [.busWidthProbe, .functionSet, .entryModeSet, .displayControlSet, .ready]
    ∧ (s.conf.busWidth = .fourBit →
        phaseCount t.seq = 42 ∧ waitCount t.seq = 26 ∧ totalWait t.seq = 58610)
    ∧ (s.conf.busWidth = .eightBit →
        phaseCount t.seq = 24 ∧ waitCount t.seq = 19 ∧ totalWait t.seq = 58540)

/-- "Only `SetInit` micro-events of BEGIN write it" (10_state.md R26; decision D17): no other instruction
loads a SetInit, and a step changes `init_state` only by performing one or by reset. -/
def Obligations.OnlyBeginWritesInitState : Prop :=
  (∀ (i : Instr) (s : State), i ≠ .beginInit →
    ∃ t, exec i s = .next t ∧ t.initState = s.initState ∧ initWrites t.seq = [])
  ∧ ∀ s t : State, step s = .next t → t.initState ≠ s.initState →
    (∃ k es, s.seq = .setInit k :: es ∧ t.initState = k)
    ∨ (∃ rest, s.inputs = .reset :: rest ∧ t.initState = .uninit)

/-! ### Wire instructions -/

/-- The nine wire instructions (40_command_encoder.md R101 to R109). That the meaning of one is its
emission through `sendCmd` or `sendByte` is the model's choice (log 5); the byte values are the spec's
general knowledge (log 12). -/
def Obligations.WireInstructionsAreEmitted : Prop :=
  ∀ s : State,
    exec .clearDisplay s = .next { s with seq := sendCmd s.conf s.enMask 0x01#8, busy := true }
    ∧ (∀ x, exec (.returnHome x) s = .next { s with
        seq := sendCmd s.conf s.enMask (0x02#8 ||| bit x), busy := true })
    ∧ (∀ id es, exec (.entryModeSet id es) s = .next { s with
        seq := sendCmd s.conf s.enMask (0x04#8 ||| (bit id <<< 1) ||| bit es), busy := true })
    ∧ (∀ d c b, exec (.displayControl d c b) s = .next { s with
        seq := sendCmd s.conf s.enMask (0x08#8 ||| (bit d <<< 2) ||| (bit c <<< 1) ||| bit b), busy := true })
    ∧ (∀ sc rl x, exec (.cursorDisplayShift sc rl x) s = .next { s with
        seq := sendCmd s.conf s.enMask (0x10#8 ||| (bit sc <<< 3) ||| (bit rl <<< 2) ||| x.setWidth 8),
        busy := true })
    ∧ (∀ dl n f x, exec (.functionSet dl n f x) s = .next { s with
        seq := sendCmd s.conf s.enMask
          (0x20#8 ||| (bit dl <<< 4) ||| (bit n <<< 3) ||| (bit f <<< 2) ||| x.setWidth 8),
        busy := true })
    ∧ (∀ a, exec (.setCgramAddr a) s = .next { s with
        seq := sendCmd s.conf s.enMask (0x40#8 ||| a.setWidth 8), busy := true })
    ∧ (∀ a, exec (.setDdramAddr a) s = .next { s with
        seq := sendCmd s.conf s.enMask (0x80#8 ||| a.setWidth 8), busy := true })
    ∧ (∀ c, exec (.writeData c) s = .next { s with
        seq := sendByte s.conf s.enMask c true, busy := true })

/-- Emitting a wire instruction is what WRITE_TEXT of its byte does for the data class and WRITE_CMD of its
byte for the command class (30_encoding.md R76, R79; the model's choice, log 5). -/
def Obligations.WireInstructionEqualsItsRequest : Prop :=
  ∀ (w : WireWord) (i : Instr) (s : State), decode (.wire9 w) = .ok i →
    (rsField w = true → exec i s = exec (.writeText (dField w)) s)
    ∧ (rsField w = false → exec i s = exec (.writeCmd (dField w)) s)

/-! ### The handshake, the sequencer and reset -/

/-- A step runs the decoded instruction: with the block ready, a presented word that decodes to `i` is
taken from the port and the step is exec of `i` (30_encoding.md R71; decision D2; the queue of presented
words is the model's, log 3). -/
def Obligations.StepRunsTheAcceptedInstruction : Prop :=
  ∀ (s : State) (w : Word) (rest : List Input) (i : Instr), s.conf.wf = true → s.busy = false →
    s.inputs = .word w :: rest → decode w = .ok i → step s = exec i { s with inputs := rest }

/-- A word placed by withFetchWord is what the very next step runs (the model's own, log 3). -/
def Obligations.FetchWordRunsNext : Prop :=
  ∀ (s : State) (nbits w : Nat) (i : Instr), s.conf.wf = true → decodeTableWord nbits w = some i →
    step (s.withFetchWord nbits w) = exec i { s with busy := false, seq := [] }

/-- A reserved request is accepted, emits nothing, changes no state and completes at acceptance
(45_configuration.md R246, 30_encoding.md R75; decision D4). -/
def Obligations.ReservedRequestsDoNothing : Prop :=
  ∀ (s : State) (w : ReqWord) (rest : List Input), s.conf.wf = true → s.busy = false →
    s.inputs = .word (.req88 w) :: rest →
    ((opField w).toNat = 0x00 ∨ (0x0A ≤ (opField w).toNat ∧ (opField w).toNat ≤ 0x0F)
      ∨ 0x1A ≤ (opField w).toNat) →
    step s = .next { s with inputs := rest }

/-- The sequencer (10_state.md R30, R31, R32; decisions D2 and D6): while a request is in progress a step
removes the head of `seq`, performs it and emits it, and `busy` falls with the last one. That is so with
nothing presented, be it for ever or for one step (`quiet`, which the step uses up; log 3), and with a word
presented while `busy`, which keeps waiting. -/
def Obligations.SequencerPerformsTheHead : Prop :=
  ∀ (s : State) (e : MicroEvent) (es : List MicroEvent) (left : List Input), s.conf.wf = true →
    s.seq = e :: es →
    ((s.inputs = [] ∧ left = [])
      ∨ s.inputs = .quiet :: left
      ∨ (s.busy = true ∧ left = s.inputs ∧ ∃ w rest, s.inputs = .word w :: rest)) →
    step s = .next { s with
      seq := es, busy := !es.isEmpty, trace := s.trace ++ [e], inputs := left,
      lines := match e with
        | .phase p => { rs := p.rs, rw := false, en := p.en, d := p.d }
        | .wait _ => s.lines
        | .setInit _ => s.lines,
      initState := match e with
        | .phase _ => s.initState
        | .wait _ => s.initState
        | .setInit k => k }

/-- An idle block to which nothing is presented, for ever or for one step (`quiet`, log 3), keeps its lines
and every other field (60_exceptions.md R270). -/
def Obligations.IdleBlockHolds : Prop :=
  ∀ s : State, s.conf.wf = true → s.Idle →
    (s.inputs = [] → step s = .next s)
    ∧ ∀ rest, s.inputs = .quiet :: rest → step s = .next { s with inputs := rest }

/-- Reset values (10_state.md R38; decision D31), whatever configuration is bound, and the status port then
(R33). The configuration State.reset binds and the model's own fields are the model's choice (log 1, 3, 4). -/
def Obligations.ResetValues : Prop :=
  State.reset = State.resetWith Config.atReset
  ∧ ∀ c : Config, (State.resetWith c).cfg = { d := true, c := false, b := false, id := true, s := false }
    ∧ (State.resetWith c).enMask = 0b11#2 ∧ (State.resetWith c).initState = .uninit
    ∧ (State.resetWith c).busy = false ∧ (State.resetWith c).seq = []
    ∧ (State.resetWith c).lines = { rs := false, rw := false, en := 0b00#2, d := 0x00#8 }
    ∧ (State.resetWith c).statusPort = 0x0530#16

/-- Reset takes the block to its reset values at once, in progress or not: the rest of `seq` is discarded
and nothing is emitted (70_reset_and_hazards.md R280, R281, R282; decision D31; what stays bound is log 8). -/
def Obligations.ResetCutsTheRequest : Prop :=
  ∀ (s : State) (rest : List Input), s.conf.wf = true → s.inputs = .reset :: rest →
    step s = .next { State.resetWith s.conf with inputs := rest, trace := s.trace }

/-- The status port (10_state.md R33; decision D33), and the encoding of `init_state` it shows (R26;
decision D17). -/
def Obligations.StatusPortLayout : Prop :=
  (∀ s : State,
    s.statusPort.getLsbD 0 = s.busy
    ∧ s.statusPort.extractLsb' 1 3 = s.initState.code
    ∧ s.statusPort.extractLsb' 4 2 = s.enMask
    ∧ s.statusPort.getLsbD 6 = s.cfg.b ∧ s.statusPort.getLsbD 7 = s.cfg.c
    ∧ s.statusPort.getLsbD 8 = s.cfg.d ∧ s.statusPort.getLsbD 9 = s.cfg.s
    ∧ s.statusPort.getLsbD 10 = s.cfg.id ∧ s.statusPort.extractLsb' 11 5 = 0#5)
  ∧ InitState.code .uninit = 0#3 ∧ InitState.code .busWidthProbe = 1#3 ∧ InitState.code .functionSet = 2#3
  ∧ InitState.code .entryModeSet = 3#3 ∧ InitState.code .displayControlSet = 4#3 ∧ InitState.code .ready = 5#3

/-! ### Transports -/

/-- PARALLEL (30_encoding.md R81; decision D21): controlBits, dataByte and the pins, RW always 0. -/
def Obligations.ParallelPhaseEncoding : Prop :=
  ∀ (c : Config) (p : Phase), c.transport = .parallel →
    realise c p = .send (0b00000#5 ++ p.en ++ BitVec.ofBool p.rs) p.d
    ∧ p.drive.pins = { rs := p.rs, rw := false, en0 := p.en.getLsbD 0, en1 := p.en.getLsbD 1, d := p.d }

/-- I2C (30_encoding.md R82, 20_memory.md R56; decisions D22 and D26): RS at bit 0, R/W 0 at bit 1, EN at
bit 2, the backlight at bit 3, the data nibble at bits 4 to 7, to `I2C_ADDR`. -/
def Obligations.I2cPhaseEncoding : Prop :=
  ∀ (c : Config) (p : Phase), c.transport = .i2c →
    realise c p = .i2cWrite c.i2cAddr (p.d.extractLsb' 4 4 ++ BitVec.ofBool c.backlight
      ++ BitVec.ofBool (decide (p.en ≠ 0#2)) ++ 0#1 ++ BitVec.ofBool p.rs)

/-- On I2C the mask never shows on the wire: two blocks that differ only in their (legal) masks make the
same transport calls for every list of words, SET_EN_MASK among them (45_configuration.md R245; decision
D22). -/
def Obligations.I2cWireIndependentOfMask : Prop :=
  ∀ (ws : List Word) (s : State) (m : BitVec 2), s.conf.transport = .i2c → s.enMask ≠ 0#2 → m ≠ 0#2 →
    transportActs s.conf (s.servedAll ws).trace
      = transportActs s.conf (({ s with enMask := m } : State).servedAll ws).trace

/-! ### The whole machine -/

/-- Every step of a block with a well-formed configuration answers a next state, and an ill-formed
configuration has no behaviour (60_exceptions.md R260, 00_scope.md R9; decision D41; log 10). -/
def Obligations.StepAnswersNextOrRefusesConfiguration : Prop :=
  ∀ s : State, (s.conf.wf = true → ∃ t, step s = .next t)
    ∧ (s.conf.wf = false → step s = .refused .illFormedConfig)

/-- No request is guarded (70_reset_and_hazards.md R285; decision D18): every instruction is accepted in
every `init_state` and does the same there. -/
def Obligations.RequestsAreNotGuarded : Prop :=
  ∀ (i : Instr) (s : State) (k : InitState), ∃ t, exec i s = .next t
    ∧ exec i { s with initState := k } = .next { t with initState := k }

/-- No step changes the configuration (00_scope.md R7: "BusWidth and Layout never change after
construction"). -/
def Obligations.ConfigurationNeverChanges : Prop :=
  ∀ s t : State, step s = .next t → t.conf = s.conf

/-- From a state that meets the invariant, whatever a step does to the trace and to `seq` is one of four
things (00_scope.md R13, 10_state.md R31, 20_memory.md R59, 70_reset_and_hazards.md R281): it emits the head
of `seq` and leaves the rest; it is idle and changes neither; it accepts the presented word, with `seq` empty
before; or it is a reset, which discards `seq`. The trace changes only in the first. So no micro-event is
repeated, merged or reordered, and none is elided but by reset. The trace and the inputs are the model's own
(logs 3, 4). -/
def Obligations.TraceGrowsByTheHeadOfSeq : Prop :=
  ∀ s t : State, s.Inv → step s = .next t →
    (∃ e es, s.seq = e :: es ∧ t.seq = es ∧ t.trace = s.trace ++ [e]
      ∧ (t.inputs = s.inputs ∨ s.inputs = .quiet :: t.inputs))
    ∨ (s.seq = [] ∧ t.seq = [] ∧ t.trace = s.trace ∧ (s.inputs = [] ∨ s.inputs = .quiet :: t.inputs))
    ∨ (∃ w, s.seq = [] ∧ s.busy = false ∧ s.inputs = .word w :: t.inputs ∧ t.trace = s.trace
      ∧ accept w { s with inputs := t.inputs } = .next t)
    ∨ (s.inputs = .reset :: t.inputs ∧ t.seq = [] ∧ t.trace = s.trace)

/-- The minimum durations with the default timing (70_reset_and_hazards.md R293, derived from R131 to
R139), for both widths: the sum of the `Wait` lower bounds of the list each request loads. -/
def Obligations.RequestDurations : Prop :=
  ∀ s : State, s.conf.wf = true → s.conf.timing = {} →
    (∃ t, exec .beginInit s = .next t ∧ totalWait t.seq = perWidth s.conf 58610 58540)
    ∧ (∀ v, ∃ t, exec (.writeCmd v) s = .next t
        ∧ totalWait t.seq = if isLong v then perWidth s.conf 2050 2045 else perWidth s.conf 50 45)
    ∧ (∀ v, ∃ t, exec (.writeText v) s = .next t ∧ totalWait t.seq = perWidth s.conf 12 7)
    ∧ (∀ slot : Byte, ∃ t, exec (.writeCustom slot) s = .next t
        ∧ totalWait t.seq = if slot.toNat < 8 then perWidth s.conf 12 7 else 0)
    ∧ (∀ line column : Byte, ∃ t, exec (.setCursor line column) s = .next t
        ∧ totalWait t.seq =
          if line.toNat < s.conf.lines ∧ column.toNat < s.conf.columns then perWidth s.conf 50 45 else 0)
    ∧ (∀ (slot : Byte) (m : BitVec 64), ∃ t, exec (.customChar slot m) s = .next t
        ∧ totalWait t.seq = if slot.toNat < 8 then perWidth s.conf 2196 2146 else perWidth s.conf 2050 2045)
    ∧ (∃ t, exec .updateConfig s = .next t ∧ totalWait t.seq = perWidth s.conf 100 90)
    ∧ (∀ v rs, ∃ t, exec (.send v rs) s = .next t
        ∧ totalWait t.seq = if rs then perWidth s.conf 12 7 else perWidth s.conf 50 45)
    ∧ (∀ m, ∃ t, exec (.setEnMask m) s = .next t ∧ totalWait t.seq = 0)
    ∧ (∀ i, (toggleFlag i).isSome = true → ∃ t, exec i s = .next t ∧ totalWait t.seq = 0)

/-- There is no fault, no step fails once the configuration is well-formed, and a request in progress runs
to the end of its micro-event list, one micro-event a step (60_exceptions.md R260; that the
type Fault is empty is log 11, that an ill-formed configuration is refused at the step log 10). -/
def Obligations.EveryRequestRunsToItsEnd : Prop :=
  (∀ _f : Fault, False)
  ∧ (∀ s : State, s.conf.wf = true → ∃ t, step s = .next t)
  ∧ ∀ (s : State) (ws : List Word), s.conf.wf = true → s.busy = !s.seq.isEmpty →
      s.inputs = ws.map .word →
      ∃ t, Sys2Proof.core.run s.seq.length s = .next t
        ∧ t.Idle ∧ t.inputs = s.inputs ∧ t.trace = s.trace ++ s.seq
        ∧ t.cfg = s.cfg ∧ t.enMask = s.enMask ∧ t.conf = s.conf

/-- 20_memory.md R60: the micro-events of each request in the order of its list, and all micro-events of a
request before any of the next accepted one. From an idle block the presented words are served to the
end one after the other, and the trace is the lists of the requests in acceptance order. The queue of words
is the model's (log 3), and the wire words among them, and what the one that names no instruction does, are
its choices (logs 5, 6). -/
def Obligations.RequestsServedInAcceptanceOrder : Prop :=
  ∀ (ws : List Word) (s : State), s.conf.wf = true → s.Idle → s.inputs = ws.map .word →
    ∃ n, Sys2Proof.core.run n s = .next { s.servedAll ws with inputs := [] }
      ∧ (s.servedAll ws).trace = s.trace ++ (State.acceptedLists ws s).flatten
      ∧ (State.acceptedLists ws s).length = ws.length

/-- The invariant holds after reset, whatever configuration is bound (10_state.md R38). -/
def Obligations.InvariantHoldsAtReset : Prop := ∀ c : Config, (State.resetWith c).Inv

/-- Every step keeps the invariant: the mask is legal (10_state.md R29), `busy` is the non-emptiness of
`seq` (R30), the block never reads (41_bus_framer.md R143), data and RS are stable around every Enable
pulse (R131, R141), the unwired lines are 0 on FourBit (R134), and `init_state` moves forward through BEGIN
(42_initialization.md R161). -/
def Obligations.StepKeepsTheInvariant : Prop :=
  ∀ s t : State, s.Inv → step s = .next t → t.Inv

/-! ### The assembler -/

/-- Each line of the assembler syntax, at every operand that fits its field, is assembled to the request of
30_encoding.md R72 with the operands in their fields (SET_EN_MASK's in A[1:0], SEND's rs in B[0]) and for
CUSTOM_CHAR `M = {r7, r6, r5, r4, r3, r2, r1, r0}`, the pseudo-instructions to the requests they stand for;
and a line with an operand that does not fit is assembled to nothing (R84, R85; decisions D3, D5, D32 and
D40). That the operands of SET_EN_MASK and SEND fit when they fit a byte is log 14. -/
def Obligations.AssembledLinesAreRequests : Prop :=
  asmDecoded .beginInit = some [.ok .beginInit]
  ∧ (∀ v : Byte, asmDecoded (.writeCmd v.toNat) = some [.ok (.writeCmd v)]
    ∧ asmDecoded (.writeText v.toNat) = some [.ok (.writeText v)]
    ∧ asmDecoded (.writeCustom v.toNat) = some [.ok (.writeCustom v)]
    ∧ asmDecoded (.setEnMask v.toNat) = some [.ok (.setEnMask (v.extractLsb' 0 2))])
  ∧ (∀ a b : Byte, asmDecoded (.setCursor a.toNat b.toNat) = some [.ok (.setCursor a b)]
    ∧ asmDecoded (.send a.toNat b.toNat) = some [.ok (.send a (b.getLsbD 0))])
  ∧ (∀ s r0 r1 r2 r3 r4 r5 r6 r7 : Byte,
    asmDecoded (.customChar s.toNat r0.toNat r1.toNat r2.toNat r3.toNat r4.toNat r5.toNat r6.toNat r7.toNat)
      = some [.ok (.customChar s (r7 ++ r6 ++ r5 ++ r4 ++ r3 ++ r2 ++ r1 ++ r0))])
  ∧ asmDecoded .updateConfig = some [.ok .updateConfig]
  ∧ asmDecoded .displayOn = some [.ok .displayOn] ∧ asmDecoded .displayOff = some [.ok .displayOff]
  ∧ asmDecoded .cursorOn = some [.ok .cursorOn] ∧ asmDecoded .cursorOff = some [.ok .cursorOff]
  ∧ asmDecoded .blinkOn = some [.ok .blinkOn] ∧ asmDecoded .blinkOff = some [.ok .blinkOff]
  ∧ asmDecoded .autoscrollOn = some [.ok .autoscrollOn] ∧ asmDecoded .autoscrollOff = some [.ok .autoscrollOff]
  ∧ asmDecoded .leftToRight = some [.ok .leftToRight] ∧ asmDecoded .rightToLeft = some [.ok .rightToLeft]
  ∧ (∀ cs : List Byte,
    asmDecoded (.writeString (cs.map BitVec.toNat)) = some (cs.map fun c => .ok (.writeText c)))
  ∧ asmDecoded .clear = some [.ok (.writeCmd 0x01#8)] ∧ asmDecoded .home = some [.ok (.writeCmd 0x02#8)]
  ∧ (∀ n k : Nat, 256 ≤ n → assemble (.writeCmd n) = none ∧ assemble (.writeText n) = none
    ∧ assemble (.writeCustom n) = none ∧ assemble (.setEnMask n) = none
    ∧ assemble (.setCursor n k) = none ∧ assemble (.setCursor k n) = none
    ∧ assemble (.send n k) = none ∧ assemble (.send k n) = none)
  ∧ (∀ s r0 r1 r2 r3 r4 r5 r6 r7 n : Nat, n ∈ [s, r0, r1, r2, r3, r4, r5, r6, r7] → 256 ≤ n →
    assemble (.customChar s r0 r1 r2 r3 r4 r5 r6 r7) = none)
  ∧ ∀ (cs : List Nat) (n : Nat), n ∈ cs → 256 ≤ n → assemble (.writeString cs) = none
end

