-- ==== Sys2Proof/Laws/Encoding.lean ====
section
/-! SUPPORT. The fields of a request word and of a wire word read back what was put into them. -/

namespace Sys2Proof

@[simp] theorem opField_reqWord (op a b : Byte) (m : BitVec 64) : opField (reqWord op a b m) = op := by
  apply BitVec.eq_of_getLsbD_eq
  intro i hi
  have h1 : ¬ 80 + i < 80 := by omega
  have h2 : 80 + i < 88 := by omega
  have h3 : 8 ≤ 80 + i - 72 := by omega
  have h4 : 8 ≤ 80 + i - 64 := by omega
  have h5 : 64 ≤ 80 + i := by omega
  simp [opField, reqWord, hi, h1, h2, BitVec.getLsbD_of_ge _ _ h3,
    BitVec.getLsbD_of_ge _ _ h4, BitVec.getLsbD_of_ge _ _ h5]

@[simp] theorem aField_reqWord (op a b : Byte) (m : BitVec 64) : aField (reqWord op a b m) = a := by
  apply BitVec.eq_of_getLsbD_eq
  intro i hi
  have h1 : 72 + i < 80 := by omega
  have h2 : 72 + i < 88 := by omega
  have h4 : 8 ≤ 72 + i - 64 := by omega
  have h5 : 64 ≤ 72 + i := by omega
  simp [aField, reqWord, hi, h1, h2, BitVec.getLsbD_of_ge _ _ h4,
    BitVec.getLsbD_of_ge _ _ h5]

@[simp] theorem bField_reqWord (op a b : Byte) (m : BitVec 64) : bField (reqWord op a b m) = b := by
  apply BitVec.eq_of_getLsbD_eq
  intro i hi
  have h1 : 64 + i < 80 := by omega
  have h2 : 64 + i < 88 := by omega
  have h3 : 64 + i < 72 := by omega
  simp [bField, reqWord, hi, h1, h2, h3]

@[simp] theorem mField_reqWord (op a b : Byte) (m : BitVec 64) : mField (reqWord op a b m) = m := by
  apply BitVec.eq_of_getLsbD_eq
  intro i hi
  have h1 : i < 80 := by omega
  have h2 : i < 88 := by omega
  have h3 : i < 72 := by omega
  simp [mField, reqWord, hi, h1, h2, h3]

@[simp] theorem rsField_wireWord (rs : Bool) (d : Byte) : rsField (wireWord rs d) = rs := by
  cases rs <;> simp [rsField, wireWord]

@[simp] theorem dField_wireWord (rs : Bool) (d : Byte) : dField (wireWord rs d) = d := by
  apply BitVec.eq_of_getLsbD_eq
  intro i hi
  have h2 : i < 9 := by omega
  simp [dField, wireWord, hi, h2]

/-- A request word is its four fields. -/
theorem reqWord_fields (w : ReqWord) : reqWord (opField w) (aField w) (bField w) (mField w) = w := by
  apply BitVec.eq_of_getLsbD_eq
  intro i hi
  simp only [opField, aField, bField, mField, reqWord, BitVec.getLsbD_or, BitVec.getLsbD_shiftLeft,
    BitVec.getLsbD_setWidth, BitVec.getLsbD_extractLsb']
  by_cases h1 : i < 64
  · simp [h1, hi, show i < 72 by omega, show i < 80 by omega]
  · by_cases h2 : i < 72
    · simp [h1, h2, hi, show 64 + (i - 64) = i by omega, show i < 80 by omega, show i - 64 < 8 by omega,
        show i - 64 < 88 by omega]
    · by_cases h3 : i < 80
      · simp [h1, h2, h3, hi, show 72 + (i - 72) = i by omega, show ¬ i - 64 < 8 by omega,
          show i - 72 < 8 by omega, show i - 72 < 88 by omega]
      · simp [h1, h2, h3, hi, show 80 + (i - 80) = i by omega, show ¬ i - 64 < 8 by omega,
          show ¬ i - 72 < 8 by omega, show i - 80 < 8 by omega, show i - 80 < 88 by omega]

/-- A wire word is its two fields. -/
theorem wireWord_fields (w : WireWord) : wireWord (rsField w) (dField w) = w := by
  revert w; decide

end Sys2Proof
end

