-- ==== Sys2Proof/Laws/Framer.lean ====
section
/-! SUPPORT. What the framing helpers emit, said once per reading of a trace: each reading goes through
append, and each helper has one lemma per reading. -/

namespace Sys2Proof.Machine

/-! ### Readings of an appended trace -/

@[simp] theorem strobes_append (as bs : List MicroEvent) : strobes (as ++ bs) = strobes as ++ strobes bs := by
  simp [strobes]

@[simp] theorem totalWait_append (as bs : List MicroEvent) : totalWait (as ++ bs) = totalWait as + totalWait bs := by
  simp [totalWait]

@[simp] theorem phaseCount_append (as bs : List MicroEvent) : phaseCount (as ++ bs) = phaseCount as + phaseCount bs := by
  simp [phaseCount]

@[simp] theorem waitCount_append (as bs : List MicroEvent) : waitCount (as ++ bs) = waitCount as + waitCount bs := by
  simp [waitCount]

@[simp] theorem initWrites_append (as bs : List MicroEvent) : initWrites (as ++ bs) = initWrites as ++ initWrites bs := by
  simp [initWrites]

/-! ### tx -/

theorem setupWait_cases (c : Config) :
    (c.timing.tAs = 0 ∧ setupWait c = []) ∨ (0 < c.timing.tAs ∧ setupWait c = [.wait c.timing.tAs]) := by
  unfold setupWait
  split
  · exact .inr ⟨‹_›, rfl⟩
  · exact .inl ⟨by omega, rfl⟩

theorem strobes_tx (c : Config) (m : BitVec 2) (rs : Bool) (d : Byte) (h : m ≠ 0#2) :
    strobes (tx c m rs d) = [{ rs := rs, byte := d }] := by
  obtain ⟨-, e⟩ | ⟨-, e⟩ := setupWait_cases c <;>
    simp [tx, e, strobes, phaseEv, MicroEvent.strobe, List.filterMap_cons, h]

theorem initWrites_tx (c : Config) (m : BitVec 2) (rs : Bool) (d : Byte) : initWrites (tx c m rs d) = [] := by
  obtain ⟨-, e⟩ | ⟨-, e⟩ := setupWait_cases c <;>
    simp [tx, e, initWrites, phaseEv, MicroEvent.initWrite]

theorem totalWait_tx (c : Config) (m : BitVec 2) (rs : Bool) (d : Byte) :
    totalWait (tx c m rs d) = c.timing.tAs + c.timing.tPweh := by
  obtain ⟨h, e⟩ | ⟨-, e⟩ := setupWait_cases c
  · simp [tx, e, totalWait, phaseEv, MicroEvent.minWait, h]
  · simp [tx, e, totalWait, phaseEv, MicroEvent.minWait]

theorem tx_ne_nil (c : Config) (m : BitVec 2) (rs : Bool) (d : Byte) : tx c m rs d ≠ [] := by
  simp [tx]

/-- The micro-events of `tx` in the two shapes they take. -/
theorem tx_cases (c : Config) (m : BitVec 2) (rs : Bool) (d : Byte) :
    tx c m rs d = [phaseEv rs 0#2 d, phaseEv rs m d, .wait c.timing.tPweh, phaseEv rs 0#2 d]
    ∨ tx c m rs d =
      [phaseEv rs 0#2 d, .wait c.timing.tAs, phaseEv rs m d, .wait c.timing.tPweh, phaseEv rs 0#2 d] := by
  obtain ⟨-, e⟩ | ⟨-, e⟩ := setupWait_cases c
  · exact .inl (by simp [tx, e])
  · exact .inr (by simp [tx, e])

/-! ### sendByte and sendCmd are not empty -/

theorem sendByte_ne_nil (c : Config) (m : BitVec 2) (v : Byte) (rs : Bool) : sendByte c m v rs ≠ [] := by
  simp [sendByte]

theorem sendCmd_ne_nil (c : Config) (m : BitVec 2) (v : Byte) : sendCmd c m v ≠ [] := by
  simp [sendCmd, sendByte]

theorem initWrites_sendByte (c : Config) (m : BitVec 2) (v : Byte) (rs : Bool) :
    initWrites (sendByte c m v rs) = [] := by
  have e : initWrites [postDelay c rs] = [] := rfl
  cases h : c.busWidth <;> simp [sendByte, byteFrames, h, initWrites_tx, e]

theorem initWrites_sendCmd (c : Config) (m : BitVec 2) (v : Byte) : initWrites (sendCmd c m v) = [] := by
  have e : initWrites (longDelay c v) = [] := by
    unfold longDelay
    split <;> rfl
  simp [sendCmd, initWrites_sendByte, e]

/-! ### The strobes and wire instructions of a byte -/

theorem strobes_setInit (i : InitState) (es : List MicroEvent) : strobes (.setInit i :: es) = strobes es := rfl

theorem strobes_wait (n : Nat) (es : List MicroEvent) : strobes (.wait n :: es) = strobes es := rfl

/-- The strobes of one byte on either width. -/
theorem strobes_sendByte (c : Config) (m : BitVec 2) (v : Byte) (rs : Bool) (h : m ≠ 0#2) :
    strobes (sendByte c m v rs) =
      match c.busWidth with
      | .eightBit => [{ rs := rs, byte := v }]
      | .fourBit => [{ rs := rs, byte := highNibble v }, { rs := rs, byte := lowNibble v }] := by
  have e : strobes [postDelay c rs] = [] := rfl
  cases hw : c.busWidth <;> simp [sendByte, byteFrames, hw, strobes_tx _ _ _ _ h, e]

theorem strobes_sendCmd (c : Config) (m : BitVec 2) (v : Byte) :
    strobes (sendCmd c m v) = strobes (sendByte c m v false) := by
  have e : strobes (longDelay c v) = [] := by
    unfold longDelay
    split <;> rfl
  simp [sendCmd, e]

theorem recombine_nibbles : ∀ v : Byte, recombine (highNibble v) (lowNibble v) = v := by decide

theorem wires_nil (w : BusWidth) : wires w [] = [] := by cases w <;> rfl

/-- A byte at the front of a trace is one wire instruction at the front of what it carries. -/
theorem wires_sendByte_append (c : Config) (m : BitVec 2) (v : Byte) (rs : Bool) (h : m ≠ 0#2)
    (es : List MicroEvent) :
    wires c.busWidth (sendByte c m v rs ++ es) = { rs := rs, byte := v } :: wires c.busWidth es := by
  cases hw : c.busWidth <;>
    simp [wires, wireBytes, strobes_sendByte _ _ _ _ h, hw, pairNibbles, recombine_nibbles]

theorem wires_sendCmd_append (c : Config) (m : BitVec 2) (v : Byte) (h : m ≠ 0#2) (es : List MicroEvent) :
    wires c.busWidth (sendCmd c m v ++ es) = { rs := false, byte := v } :: wires c.busWidth es := by
  rw [← wires_sendByte_append c m v false h es]
  simp [wires, strobes_sendCmd]

end Sys2Proof.Machine
end

