-- ==== Sys2Proof/Laws/PerInstr.lean ====
section
/-! SUPPORT. The family Format: an instruction is encoded in the format of its row of
spec/opcode_table.json, and a request with its row's OP (30_encoding.md R72). -/

namespace Sys2Proof.Laws.Format

/-- The `OP` of a request's row (R72); none for a row of format WIRE9. -/
def opOf : Instr → Option Byte
  | .beginInit => some 0x01
  | .writeCmd _ => some 0x02
  | .writeText _ => some 0x03
  | .writeCustom _ => some 0x04
  | .setCursor _ _ => some 0x05
  | .customChar _ _ => some 0x06
  | .updateConfig => some 0x07
  | .send _ _ => some 0x08
  | .setEnMask _ => some 0x09
  | .displayOn => some 0x10
  | .displayOff => some 0x11
  | .cursorOn => some 0x12
  | .cursorOff => some 0x13
  | .blinkOn => some 0x14
  | .blinkOff => some 0x15
  | .autoscrollOn => some 0x16
  | .autoscrollOff => some 0x17
  | .leftToRight => some 0x18
  | .rightToLeft => some 0x19
  | .clearDisplay => none
  | .returnHome _ => none
  | .entryModeSet _ _ => none
  | .displayControl _ _ _ => none
  | .cursorDisplayShift _ _ _ => none
  | .functionSet _ _ _ _ => none
  | .setCgramAddr _ => none
  | .setDdramAddr _ => none
  | .writeData _ => none

/-- A REQ88 word carries the row's OP, and only a request has one. -/
def Statement (i : Instr) : Prop :=
  match encode i with
  | .req88 w => opOf i = some (opField w) ∧ i.isRequest = true
  | .wire9 _ => opOf i = none ∧ i.isRequest = false

theorem beginInit : Statement .beginInit := by simp [Statement, encode, encodeRequest, opOf, Instr.isRequest]
theorem writeCmd (v : Byte) : Statement (.writeCmd v) := by simp [Statement, encode, encodeRequest, opOf, Instr.isRequest]
theorem writeText (c : Byte) : Statement (.writeText c) := by simp [Statement, encode, encodeRequest, opOf, Instr.isRequest]
theorem writeCustom (s : Byte) : Statement (.writeCustom s) := by simp [Statement, encode, encodeRequest, opOf, Instr.isRequest]
theorem setCursor (l c : Byte) : Statement (.setCursor l c) := by simp [Statement, encode, encodeRequest, opOf, Instr.isRequest]
theorem customChar (s : Byte) (m : BitVec 64) : Statement (.customChar s m) := by simp [Statement, encode, opOf, Instr.isRequest]
theorem updateConfig : Statement .updateConfig := by simp [Statement, encode, encodeRequest, opOf, Instr.isRequest]
theorem send (v : Byte) (rs : Bool) : Statement (.send v rs) := by simp [Statement, encode, encodeRequest, opOf, Instr.isRequest]
theorem setEnMask (m : BitVec 2) : Statement (.setEnMask m) := by simp [Statement, encode, encodeRequest, opOf, Instr.isRequest]
theorem displayOn : Statement .displayOn := by simp [Statement, encode, encodeRequest, opOf, Instr.isRequest]
theorem displayOff : Statement .displayOff := by simp [Statement, encode, encodeRequest, opOf, Instr.isRequest]
theorem cursorOn : Statement .cursorOn := by simp [Statement, encode, encodeRequest, opOf, Instr.isRequest]
theorem cursorOff : Statement .cursorOff := by simp [Statement, encode, encodeRequest, opOf, Instr.isRequest]
theorem blinkOn : Statement .blinkOn := by simp [Statement, encode, encodeRequest, opOf, Instr.isRequest]
theorem blinkOff : Statement .blinkOff := by simp [Statement, encode, encodeRequest, opOf, Instr.isRequest]
theorem autoscrollOn : Statement .autoscrollOn := by simp [Statement, encode, encodeRequest, opOf, Instr.isRequest]
theorem autoscrollOff : Statement .autoscrollOff := by simp [Statement, encode, encodeRequest, opOf, Instr.isRequest]
theorem leftToRight : Statement .leftToRight := by simp [Statement, encode, encodeRequest, opOf, Instr.isRequest]
theorem rightToLeft : Statement .rightToLeft := by simp [Statement, encode, encodeRequest, opOf, Instr.isRequest]
theorem clearDisplay : Statement .clearDisplay := ⟨rfl, rfl⟩
theorem returnHome (x : Bool) : Statement (.returnHome x) := ⟨rfl, rfl⟩
theorem entryModeSet (id s : Bool) : Statement (.entryModeSet id s) := ⟨rfl, rfl⟩
theorem displayControl (d c b : Bool) : Statement (.displayControl d c b) := ⟨rfl, rfl⟩
theorem cursorDisplayShift (sc rl : Bool) (x : BitVec 2) : Statement (.cursorDisplayShift sc rl x) := ⟨rfl, rfl⟩
theorem functionSet (dl n f : Bool) (x : BitVec 2) : Statement (.functionSet dl n f x) := ⟨rfl, rfl⟩
theorem setCgramAddr (a : BitVec 6) : Statement (.setCgramAddr a) := ⟨rfl, rfl⟩
theorem setDdramAddr (a : BitVec 7) : Statement (.setDdramAddr a) := ⟨rfl, rfl⟩
theorem writeData (c : Byte) : Statement (.writeData c) := ⟨rfl, rfl⟩

end Sys2Proof.Laws.Format
end

