-- ==== Sys2Proof/Laws/State.lean ====
section
/-! SUPPORT. One lemma per field per update of State, each true by rfl, so that no proof unfolds a record
update. -/

namespace Sys2Proof.Machine

/-! ### setCfgD: `cfg.D <- v` -/

@[simp] theorem State.setCfgD_conf (v : Bool) (s : State) : (s.setCfgD v).conf = s.conf := rfl
@[simp] theorem State.setCfgD_cfg (v : Bool) (s : State) : (s.setCfgD v).cfg = { s.cfg with d := v } := rfl
@[simp] theorem State.setCfgD_initState (v : Bool) (s : State) : (s.setCfgD v).initState = s.initState := rfl
@[simp] theorem State.setCfgD_enMask (v : Bool) (s : State) : (s.setCfgD v).enMask = s.enMask := rfl
@[simp] theorem State.setCfgD_busy (v : Bool) (s : State) : (s.setCfgD v).busy = s.busy := rfl
@[simp] theorem State.setCfgD_seq (v : Bool) (s : State) : (s.setCfgD v).seq = s.seq := rfl
@[simp] theorem State.setCfgD_lines (v : Bool) (s : State) : (s.setCfgD v).lines = s.lines := rfl
@[simp] theorem State.setCfgD_inputs (v : Bool) (s : State) : (s.setCfgD v).inputs = s.inputs := rfl
@[simp] theorem State.setCfgD_trace (v : Bool) (s : State) : (s.setCfgD v).trace = s.trace := rfl

/-! ### setCfgC: `cfg.C <- v` -/

@[simp] theorem State.setCfgC_conf (v : Bool) (s : State) : (s.setCfgC v).conf = s.conf := rfl
@[simp] theorem State.setCfgC_cfg (v : Bool) (s : State) : (s.setCfgC v).cfg = { s.cfg with c := v } := rfl
@[simp] theorem State.setCfgC_initState (v : Bool) (s : State) : (s.setCfgC v).initState = s.initState := rfl
@[simp] theorem State.setCfgC_enMask (v : Bool) (s : State) : (s.setCfgC v).enMask = s.enMask := rfl
@[simp] theorem State.setCfgC_busy (v : Bool) (s : State) : (s.setCfgC v).busy = s.busy := rfl
@[simp] theorem State.setCfgC_seq (v : Bool) (s : State) : (s.setCfgC v).seq = s.seq := rfl
@[simp] theorem State.setCfgC_lines (v : Bool) (s : State) : (s.setCfgC v).lines = s.lines := rfl
@[simp] theorem State.setCfgC_inputs (v : Bool) (s : State) : (s.setCfgC v).inputs = s.inputs := rfl
@[simp] theorem State.setCfgC_trace (v : Bool) (s : State) : (s.setCfgC v).trace = s.trace := rfl

/-! ### setCfgB: `cfg.B <- v` -/

@[simp] theorem State.setCfgB_conf (v : Bool) (s : State) : (s.setCfgB v).conf = s.conf := rfl
@[simp] theorem State.setCfgB_cfg (v : Bool) (s : State) : (s.setCfgB v).cfg = { s.cfg with b := v } := rfl
@[simp] theorem State.setCfgB_initState (v : Bool) (s : State) : (s.setCfgB v).initState = s.initState := rfl
@[simp] theorem State.setCfgB_enMask (v : Bool) (s : State) : (s.setCfgB v).enMask = s.enMask := rfl
@[simp] theorem State.setCfgB_busy (v : Bool) (s : State) : (s.setCfgB v).busy = s.busy := rfl
@[simp] theorem State.setCfgB_seq (v : Bool) (s : State) : (s.setCfgB v).seq = s.seq := rfl
@[simp] theorem State.setCfgB_lines (v : Bool) (s : State) : (s.setCfgB v).lines = s.lines := rfl
@[simp] theorem State.setCfgB_inputs (v : Bool) (s : State) : (s.setCfgB v).inputs = s.inputs := rfl
@[simp] theorem State.setCfgB_trace (v : Bool) (s : State) : (s.setCfgB v).trace = s.trace := rfl

/-! ### setCfgId: `cfg.ID <- v` -/

@[simp] theorem State.setCfgId_conf (v : Bool) (s : State) : (s.setCfgId v).conf = s.conf := rfl
@[simp] theorem State.setCfgId_cfg (v : Bool) (s : State) : (s.setCfgId v).cfg = { s.cfg with id := v } := rfl
@[simp] theorem State.setCfgId_initState (v : Bool) (s : State) : (s.setCfgId v).initState = s.initState := rfl
@[simp] theorem State.setCfgId_enMask (v : Bool) (s : State) : (s.setCfgId v).enMask = s.enMask := rfl
@[simp] theorem State.setCfgId_busy (v : Bool) (s : State) : (s.setCfgId v).busy = s.busy := rfl
@[simp] theorem State.setCfgId_seq (v : Bool) (s : State) : (s.setCfgId v).seq = s.seq := rfl
@[simp] theorem State.setCfgId_lines (v : Bool) (s : State) : (s.setCfgId v).lines = s.lines := rfl
@[simp] theorem State.setCfgId_inputs (v : Bool) (s : State) : (s.setCfgId v).inputs = s.inputs := rfl
@[simp] theorem State.setCfgId_trace (v : Bool) (s : State) : (s.setCfgId v).trace = s.trace := rfl

/-! ### setCfgS: `cfg.S <- v` -/

@[simp] theorem State.setCfgS_conf (v : Bool) (s : State) : (s.setCfgS v).conf = s.conf := rfl
@[simp] theorem State.setCfgS_cfg (v : Bool) (s : State) : (s.setCfgS v).cfg = { s.cfg with s := v } := rfl
@[simp] theorem State.setCfgS_initState (v : Bool) (s : State) : (s.setCfgS v).initState = s.initState := rfl
@[simp] theorem State.setCfgS_enMask (v : Bool) (s : State) : (s.setCfgS v).enMask = s.enMask := rfl
@[simp] theorem State.setCfgS_busy (v : Bool) (s : State) : (s.setCfgS v).busy = s.busy := rfl
@[simp] theorem State.setCfgS_seq (v : Bool) (s : State) : (s.setCfgS v).seq = s.seq := rfl
@[simp] theorem State.setCfgS_lines (v : Bool) (s : State) : (s.setCfgS v).lines = s.lines := rfl
@[simp] theorem State.setCfgS_inputs (v : Bool) (s : State) : (s.setCfgS v).inputs = s.inputs := rfl
@[simp] theorem State.setCfgS_trace (v : Bool) (s : State) : (s.setCfgS v).trace = s.trace := rfl

/-! ### loadDefaultCfg: the defaults of BEGIN -/

@[simp] theorem State.loadDefaultCfg_conf (s : State) : s.loadDefaultCfg.conf = s.conf := rfl
@[simp] theorem State.loadDefaultCfg_cfg (s : State) : s.loadDefaultCfg.cfg = DisplayConfig.default := rfl
@[simp] theorem State.loadDefaultCfg_initState (s : State) : s.loadDefaultCfg.initState = s.initState := rfl
@[simp] theorem State.loadDefaultCfg_enMask (s : State) : s.loadDefaultCfg.enMask = s.enMask := rfl
@[simp] theorem State.loadDefaultCfg_busy (s : State) : s.loadDefaultCfg.busy = s.busy := rfl
@[simp] theorem State.loadDefaultCfg_seq (s : State) : s.loadDefaultCfg.seq = s.seq := rfl
@[simp] theorem State.loadDefaultCfg_lines (s : State) : s.loadDefaultCfg.lines = s.lines := rfl
@[simp] theorem State.loadDefaultCfg_inputs (s : State) : s.loadDefaultCfg.inputs = s.inputs := rfl
@[simp] theorem State.loadDefaultCfg_trace (s : State) : s.loadDefaultCfg.trace = s.trace := rfl

/-! ### setEnMask: `EN_MASK <- m` -/

@[simp] theorem State.setEnMask_conf (m : BitVec 2) (s : State) : (s.setEnMask m).conf = s.conf := rfl
@[simp] theorem State.setEnMask_cfg (m : BitVec 2) (s : State) : (s.setEnMask m).cfg = s.cfg := rfl
@[simp] theorem State.setEnMask_initState (m : BitVec 2) (s : State) : (s.setEnMask m).initState = s.initState := rfl
@[simp] theorem State.setEnMask_enMask (m : BitVec 2) (s : State) : (s.setEnMask m).enMask = m := rfl
@[simp] theorem State.setEnMask_busy (m : BitVec 2) (s : State) : (s.setEnMask m).busy = s.busy := rfl
@[simp] theorem State.setEnMask_seq (m : BitVec 2) (s : State) : (s.setEnMask m).seq = s.seq := rfl
@[simp] theorem State.setEnMask_lines (m : BitVec 2) (s : State) : (s.setEnMask m).lines = s.lines := rfl
@[simp] theorem State.setEnMask_inputs (m : BitVec 2) (s : State) : (s.setEnMask m).inputs = s.inputs := rfl
@[simp] theorem State.setEnMask_trace (m : BitVec 2) (s : State) : (s.setEnMask m).trace = s.trace := rfl

/-! ### load: acceptance -/

@[simp] theorem State.load_conf (es : List MicroEvent) (s : State) : (s.load es).conf = s.conf := rfl
@[simp] theorem State.load_cfg (es : List MicroEvent) (s : State) : (s.load es).cfg = s.cfg := rfl
@[simp] theorem State.load_initState (es : List MicroEvent) (s : State) : (s.load es).initState = s.initState := rfl
@[simp] theorem State.load_enMask (es : List MicroEvent) (s : State) : (s.load es).enMask = s.enMask := rfl
@[simp] theorem State.load_busy (es : List MicroEvent) (s : State) : (s.load es).busy = !es.isEmpty := rfl
@[simp] theorem State.load_seq (es : List MicroEvent) (s : State) : (s.load es).seq = es := rfl
@[simp] theorem State.load_lines (es : List MicroEvent) (s : State) : (s.load es).lines = s.lines := rfl
@[simp] theorem State.load_inputs (es : List MicroEvent) (s : State) : (s.load es).inputs = s.inputs := rfl
@[simp] theorem State.load_trace (es : List MicroEvent) (s : State) : (s.load es).trace = s.trace := rfl

/-! ### emit: `emit(e)` -/

@[simp] theorem State.emit_conf (e : MicroEvent) (s : State) : (s.emit e).conf = s.conf := rfl
@[simp] theorem State.emit_cfg (e : MicroEvent) (s : State) : (s.emit e).cfg = s.cfg := rfl
@[simp] theorem State.emit_initState (e : MicroEvent) (s : State) : (s.emit e).initState = s.initState := rfl
@[simp] theorem State.emit_enMask (e : MicroEvent) (s : State) : (s.emit e).enMask = s.enMask := rfl
@[simp] theorem State.emit_busy (e : MicroEvent) (s : State) : (s.emit e).busy = s.busy := rfl
@[simp] theorem State.emit_seq (e : MicroEvent) (s : State) : (s.emit e).seq = s.seq := rfl
@[simp] theorem State.emit_lines (e : MicroEvent) (s : State) : (s.emit e).lines = s.lines := rfl
@[simp] theorem State.emit_inputs (e : MicroEvent) (s : State) : (s.emit e).inputs = s.inputs := rfl
@[simp] theorem State.emit_trace (e : MicroEvent) (s : State) : (s.emit e).trace = s.trace ++ [e] := rfl

/-! ### takeReset: reset -/

@[simp] theorem State.takeReset_conf (s : State) : s.takeReset.conf = s.conf := rfl
@[simp] theorem State.takeReset_cfg (s : State) : s.takeReset.cfg = DisplayConfig.default := rfl
@[simp] theorem State.takeReset_initState (s : State) : s.takeReset.initState = .uninit := rfl
@[simp] theorem State.takeReset_enMask (s : State) : s.takeReset.enMask = 0b11#2 := rfl
@[simp] theorem State.takeReset_busy (s : State) : s.takeReset.busy = false := rfl
@[simp] theorem State.takeReset_seq (s : State) : s.takeReset.seq = [] := rfl
@[simp] theorem State.takeReset_lines (s : State) : s.takeReset.lines = .zero := rfl
@[simp] theorem State.takeReset_inputs (s : State) : s.takeReset.inputs = s.inputs := rfl
@[simp] theorem State.takeReset_trace (s : State) : s.takeReset.trace = s.trace := rfl

/-! ### resetWith: the values of 10_state.md R38 -/

@[simp] theorem State.resetWith_conf (c : Config) : (State.resetWith c).conf = c := rfl
@[simp] theorem State.resetWith_cfg (c : Config) : (State.resetWith c).cfg = DisplayConfig.default := rfl
@[simp] theorem State.resetWith_initState (c : Config) : (State.resetWith c).initState = .uninit := rfl
@[simp] theorem State.resetWith_enMask (c : Config) : (State.resetWith c).enMask = 0b11#2 := rfl
@[simp] theorem State.resetWith_busy (c : Config) : (State.resetWith c).busy = false := rfl
@[simp] theorem State.resetWith_seq (c : Config) : (State.resetWith c).seq = [] := rfl
@[simp] theorem State.resetWith_lines (c : Config) : (State.resetWith c).lines = .zero := rfl
@[simp] theorem State.resetWith_inputs (c : Config) : (State.resetWith c).inputs = [] := rfl
@[simp] theorem State.resetWith_trace (c : Config) : (State.resetWith c).trace = [] := rfl

/-! ### perform: only a Phase writes the lines, only a SetInit writes init_state -/

@[simp] theorem State.perform_conf (e : MicroEvent) (s : State) : (s.perform e).conf = s.conf := by cases e <;> rfl
@[simp] theorem State.perform_cfg (e : MicroEvent) (s : State) : (s.perform e).cfg = s.cfg := by cases e <;> rfl
@[simp] theorem State.perform_enMask (e : MicroEvent) (s : State) : (s.perform e).enMask = s.enMask := by cases e <;> rfl
@[simp] theorem State.perform_busy (e : MicroEvent) (s : State) : (s.perform e).busy = s.busy := by cases e <;> rfl
@[simp] theorem State.perform_seq (e : MicroEvent) (s : State) : (s.perform e).seq = s.seq := by cases e <;> rfl
@[simp] theorem State.perform_inputs (e : MicroEvent) (s : State) : (s.perform e).inputs = s.inputs := by cases e <;> rfl
@[simp] theorem State.perform_trace (e : MicroEvent) (s : State) : (s.perform e).trace = s.trace := by cases e <;> rfl
@[simp] theorem State.perform_phase (p : Phase) (s : State) : s.perform (.phase p) = { s with lines := p.drive } := rfl
@[simp] theorem State.perform_wait (n : Nat) (s : State) : s.perform (.wait n) = s := rfl
@[simp] theorem State.perform_setInit (i : InitState) (s : State) : s.perform (.setInit i) = { s with initState := i } := rfl

/-! ### advance -/

theorem State.advance_nil (s : State) (h : s.seq = []) : s.advance = s := by simp [State.advance, h]

theorem State.advance_cons (s : State) (e : MicroEvent) (es : List MicroEvent) (h : s.seq = e :: es) :
    s.advance = (({ s with seq := es, busy := !es.isEmpty } : State).perform e).emit e := by
  simp [State.advance, h]

@[simp] theorem State.advance_conf (s : State) : s.advance.conf = s.conf := by
  unfold State.advance; split <;> simp
@[simp] theorem State.advance_cfg (s : State) : s.advance.cfg = s.cfg := by
  unfold State.advance; split <;> simp
@[simp] theorem State.advance_enMask (s : State) : s.advance.enMask = s.enMask := by
  unfold State.advance; split <;> simp
@[simp] theorem State.advance_inputs (s : State) : s.advance.inputs = s.inputs := by
  unfold State.advance; split <;> simp

end Sys2Proof.Machine
end

