-- ==== Sys2Proof/Laws/Step.lean ====
section
/-! SUPPORT. What a step can do, said once: the inversion lemma of step and of advance. Later proofs cite
these and do not unfold step. -/

namespace Sys2Proof.Machine

/-- Everything one step of a machine with a well-formed configuration can do. -/
theorem step_cases (s : State) (h : s.conf.wf = true) :
    (s.inputs = [] ∧ step s = .next s.advance)
    ∨ (∃ rest, s.inputs = .quiet :: rest ∧ step s = .next ({ s with inputs := rest } : State).advance)
    ∨ (∃ rest, s.inputs = .reset :: rest ∧ step s = .next ({ s with inputs := rest } : State).takeReset)
    ∨ (∃ w rest, s.inputs = .word w :: rest ∧ s.busy = true ∧ step s = .next s.advance)
    ∨ (∃ w rest, s.inputs = .word w :: rest ∧ s.busy = false
        ∧ step s = accept w { s with inputs := rest }) := by
  unfold step gatedStep blockStep
  rw [if_pos h]
  match hi : s.inputs with
  | [] => exact .inl ⟨rfl, rfl⟩
  | .quiet :: rest => exact .inr (.inl ⟨rest, rfl, rfl⟩)
  | .reset :: rest => exact .inr (.inr (.inl ⟨rest, rfl, rfl⟩))
  | .word w :: rest =>
    cases hb : s.busy with
    | true => exact .inr (.inr (.inr (.inl ⟨w, rest, rfl, rfl, by simp [offer, State.reqReady, hb]⟩)))
    | false => exact .inr (.inr (.inr (.inr ⟨w, rest, rfl, rfl, by simp [offer, State.reqReady, hb]⟩)))

/-- A machine with an ill-formed configuration has no step. -/
theorem step_illFormed (s : State) (h : s.conf.wf = false) : step s = .refused .illFormedConfig := by
  simp [step, gatedStep, h]

/-- Acceptance is exec of the decoded instruction, the no-op of a reserved request, or the framing of the
wire byte that names no instruction. -/
theorem accept_cases (w : Word) (s : State) :
    (∃ i, decode w = .ok i ∧ accept w s = exec i s)
    ∨ (∃ op, decode w = .error (.reservedOp op) ∧ accept w s = .next s)
    ∨ (decode w = .error .noInstruction ∧ accept w s = .next (s.emitCommand 0x00#8)) := by
  unfold accept
  match h : decode w with
  | .ok i => exact .inl ⟨i, rfl, rfl⟩
  | .error (.reservedOp op) => exact .inr (.inl ⟨op, rfl, rfl⟩)
  | .error .noInstruction => exact .inr (.inr ⟨rfl, rfl⟩)

/-- The sequencer does nothing when `seq` is empty, else it performs and emits the head. -/
theorem advance_cases (s : State) :
    (s.seq = [] ∧ s.advance = s)
    ∨ (∃ e es, s.seq = e :: es
        ∧ s.advance = (({ s with seq := es, busy := !es.isEmpty } : State).perform e).emit e) := by
  cases h : s.seq with
  | nil => exact .inl ⟨rfl, State.advance_nil s h⟩
  | cons e es => exact .inr ⟨e, es, rfl, State.advance_cons s e es h⟩

/-- A meaning ends in the acceptance of a micro-event list by a state with the same configuration, lines,
progress, inputs and trace. Every arm of exec has this form. -/
theorem exec_cases (i : Instr) (s : State) :
    ∃ g m es, exec i s = .next (({ s with cfg := g, enMask := m } : State).load es) := by
  cases i with
  | setEnMask mask =>
    simp only [exec, execSetEnMask]
    split
    · exact ⟨s.cfg, s.enMask, [], rfl⟩
    · exact ⟨s.cfg, mask, [], rfl⟩
  | _ => exact ⟨_, _, _, rfl⟩

end Sys2Proof.Machine
end

