-- ==== Sys2Proof/Laws/Request.lean ====
section
/-! SUPPORT. Whole requests: what running a micro-event list to its end leaves, and that acceptance reads
neither the inputs nor the trace. And the flags of the staged configuration read one by one. -/

namespace Sys2Proof.Machine

@[simp] theorem flag_d (g : DisplayConfig) : g.flag .d = g.d := rfl
@[simp] theorem flag_c (g : DisplayConfig) : g.flag .c = g.c := rfl
@[simp] theorem flag_b (g : DisplayConfig) : g.flag .b = g.b := rfl
@[simp] theorem flag_id (g : DisplayConfig) : g.flag .id = g.id := rfl
@[simp] theorem flag_s (g : DisplayConfig) : g.flag .s = g.s := rfl

/-- Configurations with the same five flags are the same. -/
theorem flag_ext (g h : DisplayConfig) (e : ∀ f, g.flag f = h.flag f) : g = h := by
  obtain ⟨d, c, b, id, s⟩ := g
  obtain ⟨d', c', b', id', s'⟩ := h
  have hd := e .d
  have hc := e .c
  have hb := e .b
  have hi := e .id
  have hs := e .s
  simp at hd hc hb hi hs
  simp [hd, hc, hb, hi, hs]

/-- Performing and emitting a list touches only the lines, `init_state` and the trace. -/
theorem foldl_perform_emit (es : List MicroEvent) (s : State) :
    let t := es.foldl (fun t e => (t.perform e).emit e) s
    t.conf = s.conf ∧ t.cfg = s.cfg ∧ t.enMask = s.enMask ∧ t.busy = s.busy ∧ t.seq = s.seq
      ∧ t.inputs = s.inputs ∧ t.trace = s.trace ++ es := by
  induction es generalizing s with
  | nil => simp
  | cons e es ih =>
    have h := ih ((s.perform e).emit e)
    simp only [List.foldl_cons]
    simp at h ⊢
    simp [h]

/-- Everything a drained state is. -/
theorem drained_fields (s : State) :
    s.drained.conf = s.conf ∧ s.drained.cfg = s.cfg ∧ s.drained.enMask = s.enMask ∧ s.drained.busy = false
      ∧ s.drained.seq = [] ∧ s.drained.inputs = s.inputs ∧ s.drained.trace = s.trace ++ s.seq :=
  foldl_perform_emit s.seq { s with seq := [], busy := false }

/-- A list without a SetInit leaves `init_state`. -/
theorem drained_initState (s : State) (h : initWrites s.seq = []) : s.drained.initState = s.initState := by
  have key : ∀ (es : List MicroEvent) (t : State), initWrites es = [] →
      (es.foldl (fun t e => (t.perform e).emit e) t).initState = t.initState := by
    intro es
    induction es with
    | nil => intros; rfl
    | cons e es ih =>
      intro t h
      cases e with
      | setInit k => cases h
      | wait n => exact ih _ h
      | phase p => exact (ih _ h).trans rfl
  exact key s.seq _ h

theorem drained_of_idle (s : State) (h : s.Idle) : s.drained = s := by
  obtain ⟨hb, hs⟩ := h
  unfold State.drained
  rw [hs]
  cases s
  simp_all

/-- One step of the sequencer does not change where the request ends. -/
theorem drained_advance (s : State) (e : MicroEvent) (es : List MicroEvent) (h : s.seq = e :: es) :
    s.advance.drained = s.drained := by
  unfold State.drained
  rw [State.advance_cons s e es h, h]
  simp only [List.foldl_cons]
  cases e <;> rfl

theorem exec_inputs (i : Instr) (s : State) (r : List Input) :
    ∃ t, exec i s = .next t ∧ exec i { s with inputs := r } = .next { t with inputs := r } := by
  cases i with
  | setEnMask m =>
    simp only [exec, execSetEnMask]
    split <;> exact ⟨_, rfl, rfl⟩
  | _ => exact ⟨_, rfl, rfl⟩

/-- Acceptance answers a next state, and the inputs pass through it. -/
theorem accept_inputs (w : Word) (s : State) (r : List Input) :
    ∃ t, accept w s = .next t ∧ accept w { s with inputs := r } = .next { t with inputs := r } := by
  unfold accept
  cases decode w with
  | ok i => exact exec_inputs i s r
  | error e => cases e <;> exact ⟨_, rfl, rfl⟩

end Sys2Proof.Machine
end

