-- ==== Sys2Proof/Laws/Run.lean ====
section
/-! SUPPORT. Running the machine: one step more, and two runs in a row. The lemmas about a machine in
general come first, then this one's. -/

namespace Sys2Proof.Machine

theorem coreRun_succ_of_next (M : Host.Core) {s t : M.State} (n : Nat) (h : M.step s = .next t) :
    M.run (n + 1) s = M.run n t := by
  simp only [Host.Core.run, h]

theorem coreRun_add_of_next (M : Host.Core) {m : Nat} (n : Nat) {s t : M.State} (h : M.run m s = .next t) :
    M.run (m + n) s = M.run n t := by
  induction m generalizing s with
  | zero =>
    injection h with h
    subst h
    rw [Nat.zero_add]
  | succ m ih =>
    rw [Nat.succ_add]
    cases e : M.step s with
    | next u =>
      rw [coreRun_succ_of_next M _ e] at h ⊢
      exact ih h
    | fault r => simp only [Host.Core.run, e] at h; cases h
    | refused r => simp only [Host.Core.run, e] at h; cases h

@[simp] theorem run_zero (s : State) : Sys2Proof.core.run 0 s = .next s := rfl

/-- A run of one step more begins with that step. -/
theorem run_succ_of_next {s t : State} (n : Nat) (h : step s = .next t) :
    Sys2Proof.core.run (n + 1) s = Sys2Proof.core.run n t :=
  coreRun_succ_of_next Sys2Proof.core n h

/-- Two runs in a row are one run. -/
theorem run_add_of_next {m : Nat} (n : Nat) {s t : State} (h : Sys2Proof.core.run m s = .next t) :
    Sys2Proof.core.run (m + n) s = Sys2Proof.core.run n t :=
  coreRun_add_of_next Sys2Proof.core n h

end Sys2Proof.Machine
end

