-- ==== Sys2Proof/Tests/Slice0.lean ====
section
/-! SUPPORT. Small tests, their expected values taken from spec/ (95_test_vectors.md and the encoding tables
of 30_encoding.md): what well-formedness refuses, the decoding of one written-out word for each constructor,
one step of each instruction, and for each statement with hypotheses a witness that meets them. -/

namespace Sys2Proof.Machine.Tests

/-! ### Configurations and states of the vectors -/

/-- 16 columns, 2 lines, the layout of 95_test_vectors.md "Notation", with the given width and transport. -/
def conf16x2 (w : BusWidth) (t : Transport) : Config where
  busWidth := w
  transport := t
  columns := 16
  lines := 2
  lineBase := [0x80#8, 0xC0#8]
  i2cAddr := 0#7

/-- FB of the vectors. -/
def fb : Config := conf16x2 .fourBit .parallel

/-- EB of the vectors. -/
def eb : Config := conf16x2 .eightBit .parallel

/-- FB on I2C of the vectors. -/
def i2c : Config := conf16x2 .fourBit .i2c

/-- 20 columns, 4 lines (V57). -/
def eb20x4 : Config := { eb with columns := 20, lines := 4, lineBase := [0x80#8, 0xC0#8, 0x94#8, 0xD4#8] }

/-- The state after an instruction accepted at reset. -/
def after (c : Config) (i : Instr) : Option State :=
  match exec i (State.resetWith c) with
  | .next t => some t
  | .fault _ => none
  | .refused _ => none

/-- The micro-events an instruction accepted at reset loads. -/
def list (c : Config) (i : Instr) : Option (List MicroEvent) := (after c i).map State.seq

/-- The wire instructions an instruction accepted at reset loads. -/
def wire (c : Config) (i : Instr) : Option (List WireByte) := (list c i).map (wires c.busWidth)

/-- The state that a step answers. -/
def stepped (s : State) : Option State :=
  match step s with
  | .next t => some t
  | .fault _ => none
  | .refused _ => none

/-- `P{rs,en,d}` of the vectors. -/
def P (rs : Bool) (en : BitVec 2) (d : Byte) : MicroEvent := .phase { rs := rs, en := en, d := d }

/-- `Wn` of the vectors. -/
def W (n : Nat) : MicroEvent := .wait n

/-! ### Well-formedness refuses, one term for each check (R7, R9, R84) -/

theorem test_wf_vectors : fb.wf = true ∧ eb.wf = true ∧ i2c.wf = true ∧ eb20x4.wf = true := by decide
theorem test_wf_columns_zero : ({ fb with columns := 0 } : Config).wf = false := by decide
theorem test_wf_columns_129 : ({ fb with columns := 129, lines := 1, lineBase := [0x80#8] } : Config).wf = false := by decide
theorem test_wf_columns_128 : ({ fb with columns := 128, lines := 1, lineBase := [0x80#8] } : Config).wf = true := by decide
theorem test_wf_lines_zero : ({ fb with lines := 0, lineBase := [] } : Config).wf = false := by decide
theorem test_wf_lines_five :
    ({ fb with lines := 5, lineBase := [0x80#8, 0x80#8, 0x80#8, 0x80#8, 0x80#8] } : Config).wf = false := by decide
theorem test_wf_line_count : ({ fb with lineBase := [0x80#8] } : Config).wf = false := by decide
theorem test_wf_base_bit7 : ({ fb with lineBase := [0x80#8, 0x40#8] } : Config).wf = false := by decide
theorem test_wf_base_end : ({ fb with lineBase := [0x80#8, 0xF1#8] } : Config).wf = false := by decide
theorem test_wf_i2c_eightBit : ({ i2c with busWidth := .eightBit } : Config).wf = false := by decide
theorem test_wf_asm_bytes :
    (AsmLine.writeCmd 256).wf = false ∧ (AsmLine.writeText 256).wf = false ∧ (AsmLine.writeCustom 256).wf = false
    ∧ (AsmLine.setEnMask 256).wf = false ∧ (AsmLine.writeString [65, 256]).wf = false := by decide
theorem test_wf_asm_setCursor : (AsmLine.setCursor 256 0).wf = false ∧ (AsmLine.setCursor 0 256).wf = false := by decide
theorem test_wf_asm_send : (AsmLine.send 256 0).wf = false ∧ (AsmLine.send 0 256).wf = false := by decide
theorem test_wf_asm_customChar :
    (AsmLine.customChar 256 0 0 0 0 0 0 0 0).wf = false ∧ (AsmLine.customChar 0 256 0 0 0 0 0 0 0).wf = false
    ∧ (AsmLine.customChar 0 0 0 0 0 0 0 0 256).wf = false := by decide
/-- A step of a block with an ill-formed configuration has no meaning (R9). -/
theorem test_step_refuses_illFormed :
    step (State.resetWith { i2c with busWidth := .eightBit }) = .refused .illFormedConfig := rfl

/-! ### Decoding: a written-out word for each constructor -/

theorem test_decode_beginInit : decode (.req88 0x0100000000000000000000#88) = .ok .beginInit := by decide
theorem test_decode_writeCmd : decode (.req88 0x0281000000000000000000#88) = .ok (.writeCmd 0x81#8) := by decide
theorem test_decode_writeText : decode (.req88 0x0341000000000000000000#88) = .ok (.writeText 0x41#8) := by decide
theorem test_decode_writeCustom : decode (.req88 0x0409000000000000000000#88) = .ok (.writeCustom 9#8) := by decide
theorem test_decode_setCursor : decode (.req88 0x0501030000000000000000#88) = .ok (.setCursor 1#8 3#8) := by decide
theorem test_decode_customChar :
    decode (.req88 0x0602550807060504030201#88) = .ok (.customChar 2#8 0x0807060504030201#64) := by decide
theorem test_decode_updateConfig : decode (.req88 0x0700000000000000000000#88) = .ok .updateConfig := by decide
theorem test_decode_send : decode (.req88 0x0841FF0000000000000000#88) = .ok (.send 0x41#8 true) := by decide
theorem test_decode_setEnMask : decode (.req88 0x09FE000000000000000000#88) = .ok (.setEnMask 0b10#2) := by decide
theorem test_decode_displayOn : decode (.req88 0x1000000000000000000000#88) = .ok .displayOn := by decide
theorem test_decode_displayOff : decode (.req88 0x1100000000000000000000#88) = .ok .displayOff := by decide
theorem test_decode_cursorOn : decode (.req88 0x1200000000000000000000#88) = .ok .cursorOn := by decide
theorem test_decode_cursorOff : decode (.req88 0x1300000000000000000000#88) = .ok .cursorOff := by decide
theorem test_decode_blinkOn : decode (.req88 0x1400000000000000000000#88) = .ok .blinkOn := by decide
theorem test_decode_blinkOff : decode (.req88 0x1500000000000000000000#88) = .ok .blinkOff := by decide
theorem test_decode_autoscrollOn : decode (.req88 0x1600000000000000000000#88) = .ok .autoscrollOn := by decide
theorem test_decode_autoscrollOff : decode (.req88 0x1700000000000000000000#88) = .ok .autoscrollOff := by decide
theorem test_decode_leftToRight : decode (.req88 0x1800000000000000000000#88) = .ok .leftToRight := by decide
theorem test_decode_rightToLeft : decode (.req88 0x1900000000000000000000#88) = .ok .rightToLeft := by decide
theorem test_decode_reserved :
    decode (.req88 0x0041010000000000001234#88) = .error (.reservedOp 0x00#8)
    ∧ decode (.req88 0x0F41010000000000001234#88) = .error (.reservedOp 0x0F#8)
    ∧ decode (.req88 0x1A41010000000000001234#88) = .error (.reservedOp 0x1A#8) := by decide
theorem test_decode_clearDisplay : decode (.wire9 0b000000001#9) = .ok .clearDisplay := by decide
theorem test_decode_returnHome : decode (.wire9 0b000000011#9) = .ok (.returnHome true) := by decide
theorem test_decode_entryModeSet : decode (.wire9 0b000000110#9) = .ok (.entryModeSet true false) := by decide
theorem test_decode_displayControl : decode (.wire9 0b000001110#9) = .ok (.displayControl true true false) := by decide
theorem test_decode_cursorDisplayShift :
    decode (.wire9 0b000011001#9) = .ok (.cursorDisplayShift true false 0b01#2) := by decide
theorem test_decode_functionSet : decode (.wire9 0b000101010#9) = .ok (.functionSet false true false 0b10#2) := by decide
theorem test_decode_setCgramAddr : decode (.wire9 0b001010000#9) = .ok (.setCgramAddr 0x10#6) := by decide
theorem test_decode_setDdramAddr : decode (.wire9 0b011000011#9) = .ok (.setDdramAddr 0x43#7) := by decide
theorem test_decode_writeData : decode (.wire9 0b101000001#9) = .ok (.writeData 0x41#8) := by decide
theorem test_decode_noInstruction : decode (.wire9 0b000000000#9) = .error .noInstruction := by decide
theorem test_decodeTableWord :
    decodeTableWord 88 0x0501030000000000000000 = some (.setCursor 1#8 3#8)
    ∧ decodeTableWord 9 0x141 = some (.writeData 0x41#8) ∧ decodeTableWord 16 0x200 = none := by decide

/-! ### The framer and the transports (2.1) -/

theorem test_send_V1 : list eb (.send 0x41#8 true) =
    some [P true 0#2 0x41#8, P true 3#2 0x41#8, W 5, P true 0#2 0x41#8, W 2] := by decide
theorem test_send_V8 : list fb (.send 0x01#8 false) =
    some [P false 0#2 0#8, P false 3#2 0#8, W 5, P false 0#2 0#8,
      P false 0#2 0x10#8, P false 3#2 0x10#8, W 5, P false 0#2 0x10#8, W 40] := by decide
theorem test_tAs_V17 : list { eb with timing := { tAs := 3 } } (.send 0x41#8 true) =
    some [P true 0#2 0x41#8, W 3, P true 3#2 0x41#8, W 5, P true 0#2 0x41#8, W 2] := by decide
theorem test_i2c_V9 : (list i2c (.send 0x41#8 true)).map (transportActs i2c) =
    some ([0x49#8, 0x4D#8, 0x49#8, 0x19#8, 0x1D#8, 0x19#8].map (TransportAct.i2cWrite 0#7)) := by decide
theorem test_i2c_noBacklight_V11 :
    (list { i2c with backlight := false } (.send 0x41#8 true)).map (transportActs { i2c with backlight := false }) =
    some ([0x41#8, 0x45#8, 0x41#8, 0x11#8, 0x15#8, 0x11#8].map (TransportAct.i2cWrite 0#7)) := by decide
theorem test_parallel_V1 : (list eb (.send 0x41#8 true)).map (transportActs eb) =
    some ([0b001#8, 0b111#8, 0b001#8].map (TransportAct.send · 0x41#8)) := by decide

/-! ### The encoder (2.2) -/

theorem test_enc_V36_V38 :
    encShift true true = 0x1C#8 ∧ encShift true false = 0x18#8 ∧ encCgram 56#8 = 0x78#8 ∧ encCgram 0x7F#8 = 0x7F#8 := by decide
theorem test_functionSetByte_V39 :
    functionSetByte fb = 0x28#8 ∧ functionSetByte { fb with lines := 1, font5x10 := true } = 0x24#8
    ∧ functionSetByte eb20x4 = 0x38#8 := by decide

/-! ### Requests: one step of each -/

theorem test_writeCmd_V21 : list eb (.writeCmd 0x01#8) =
    some [P false 0#2 1#8, P false 3#2 1#8, W 5, P false 0#2 1#8, W 40, W 2000] := by decide
theorem test_writeCmd_V24 : (list fb (.writeCmd 0x04#8)).map totalWait = some 50 := by decide
theorem test_writeText_V43 : list fb (.writeText 0x41#8) =
    some [P true 0#2 0x40#8, P true 3#2 0x40#8, W 5, P true 0#2 0x40#8,
      P true 0#2 0x10#8, P true 3#2 0x10#8, W 5, P true 0#2 0x10#8, W 2] := by decide
theorem test_writeCustom_V46 : wire fb (.writeCustom 7#8) = some [⟨true, 0x07#8⟩] := by decide
theorem test_writeCustom_V47 : after eb (.writeCustom 8#8) = some (State.resetWith eb) := by decide
theorem test_setCursor_V57 :
    wire eb20x4 (.setCursor 2#8 19#8) = some [⟨false, 0xA7#8⟩]
    ∧ wire eb20x4 (.setCursor 3#8 19#8) = some [⟨false, 0xE7#8⟩] := by decide
theorem test_setCursor_V54_V55 :
    list fb (.setCursor 2#8 0#8) = some [] ∧ list fb (.setCursor 0#8 16#8) = some [] := by decide
theorem test_customChar_V66 : wire eb (.customChar 3#8 0xFFE0A5000000001F#64) =
    some [⟨false, 0x58#8⟩, ⟨true, 0x1F#8⟩, ⟨true, 0#8⟩, ⟨true, 0#8⟩, ⟨true, 0#8⟩, ⟨true, 0#8⟩, ⟨true, 0xA5#8⟩,
      ⟨true, 0xE0#8⟩, ⟨true, 0xFF#8⟩, ⟨false, 0x02#8⟩] := by decide
theorem test_customChar_V64 : list eb (.customChar 8#8 0x1F1F1F1F1F1F1F1F#64) =
    some [P false 0#2 2#8, P false 3#2 2#8, W 5, P false 0#2 2#8, W 40, W 2000] := by decide
theorem test_updateConfig_V70 : list fb .updateConfig =
    some [P false 0#2 0x00#8, P false 3#2 0x00#8, W 5, P false 0#2 0x00#8,
      P false 0#2 0xC0#8, P false 3#2 0xC0#8, W 5, P false 0#2 0xC0#8, W 40,
      P false 0#2 0x00#8, P false 3#2 0x00#8, W 5, P false 0#2 0x00#8,
      P false 0#2 0x60#8, P false 3#2 0x60#8, W 5, P false 0#2 0x60#8, W 40] := by decide
theorem test_updateConfig_V79 :
    wires .fourBit ((State.resetWith fb).servedAll
      [encode .autoscrollOn, encode .rightToLeft, encode .updateConfig]).trace
      = [⟨false, 0x0C#8⟩, ⟨false, 0x05#8⟩] := by decide
theorem test_setEnMask_V80_V81 :
    (after fb (.setEnMask 0b00#2)).map State.enMask = some 0b11#2
    ∧ (after fb (.setEnMask 0b01#2)).map State.statusPort = some 0x0510#16 := by decide
theorem test_setEnMask_V15 :
    ((State.resetWith eb).servedAll [encode (.setEnMask 2#2), encode (.send 0x41#8 true)]).trace =
    [P true 0#2 0x41#8, P true 2#2 0x41#8, W 5, P true 0#2 0x41#8, W 2] := by decide
theorem test_toggles_V71 :
    ((State.resetWith eb).servedAll [encode .displayOn, encode .cursorOn, encode .blinkOn, encode .autoscrollOn,
      encode .leftToRight]).cfg = ⟨true, true, true, true, true⟩ := by decide
theorem test_toggles_V72 :
    ((State.resetWith eb).servedAll [encode .displayOff, encode .cursorOff, encode .blinkOff, encode .autoscrollOff,
      encode .rightToLeft]).cfg = ⟨false, false, false, false, false⟩ := by decide
theorem test_toggles_V77_V78 :
    ((State.resetWith eb).servedAll [encode .cursorOn, encode .cursorOff]).cfg.c = false
    ∧ ((State.resetWith eb).servedAll [encode .cursorOff, encode .cursorOn]).cfg.c = true := by decide
theorem test_begin_V61 : list eb .beginInit =
    some ([.setInit .busWidthProbe, W 50000, P false 0#2 0x30#8, P false 3#2 0x30#8, W 5, P false 0#2 0x30#8, W 4100,
      P false 0#2 0x30#8, P false 3#2 0x30#8, W 5, P false 0#2 0x30#8, W 100,
      P false 0#2 0x30#8, P false 3#2 0x30#8, W 5, P false 0#2 0x30#8, W 100, .setInit .functionSet]
    ++ [P false 0#2 0x38#8, P false 3#2 0x38#8, W 5, P false 0#2 0x38#8, W 40,
      P false 0#2 0x01#8, P false 3#2 0x01#8, W 5, P false 0#2 0x01#8, W 40, W 2000,
      P false 0#2 0x02#8, P false 3#2 0x02#8, W 5, P false 0#2 0x02#8, W 40, W 2000, .setInit .entryModeSet,
      P false 0#2 0x06#8, P false 3#2 0x06#8, W 5, P false 0#2 0x06#8, W 40, .setInit .displayControlSet,
      P false 0#2 0x0C#8, P false 3#2 0x0C#8, W 5, P false 0#2 0x0C#8, W 40, .setInit .ready]) := by decide
theorem test_begin_V60 :
    (list fb .beginInit).map (fun l => (phaseCount l, waitCount l, (initWrites l).length, totalWait l))
      = some (42, 26, 5, 58610) := by decide

/-! ### Wire instructions: the byte of each (2.2, RS = 1 for WRITE_DATA) -/

theorem test_clearDisplay : list eb .clearDisplay = list eb (.writeCmd 0x01#8) := by decide
theorem test_returnHome_V23 : (list fb (.returnHome true)).map totalWait = some 2050 := by decide
theorem test_entryModeSet_V25 : wire fb (.entryModeSet true true) = some [⟨false, 0x07#8⟩] := by decide
theorem test_displayControl_V26 : wire fb (.displayControl true true true) = some [⟨false, 0x0F#8⟩] := by decide
theorem test_cursorDisplayShift_V28 : wire fb (.cursorDisplayShift true true 0#2) = some [⟨false, 0x1C#8⟩] := by decide
theorem test_functionSet_V30 : wire fb (.functionSet true true true 3#2) = some [⟨false, 0x3F#8⟩] := by decide
theorem test_setCgramAddr_V31 : wire fb (.setCgramAddr 0#6) = some [⟨false, 0x40#8⟩] := by decide
theorem test_setDdramAddr_V33 : wire fb (.setDdramAddr 0x7F#7) = some [⟨false, 0xFF#8⟩] := by decide
theorem test_writeData_V40 : list eb (.writeData 0x41#8) =
    some [P true 0#2 0x41#8, P true 3#2 0x41#8, W 5, P true 0#2 0x41#8, W 2] := by decide

/-! ### Steps -/

theorem test_reset_statusPort_V90 : State.reset.statusPort = 0x0530#16 := by decide
/-- V90, during V60's power-up wait: BEGIN accepted, its first SetInit performed. -/
theorem test_step_begin_V90 :
    ((stepped ((State.resetWith fb).withFetchWord 88 0x0100000000000000000000)).bind stepped).map State.statusPort
      = some 0x0533#16 := by decide
theorem test_step_reserved_V84 :
    stepped ((State.resetWith fb).withFetchWord 88 0xFF41010000000000001234) = some (State.resetWith fb) := by decide
theorem test_step_wire :
    (stepped (State.reset.withFetchWord 9 0x141)).map State.seq = list Config.atReset (.writeData 0x41#8) := by decide
/-- A word waits while a request is in progress (R71). -/
theorem test_step_busy_holds_word :
    (stepped { State.resetWith eb with
      busy := true, seq := [W 40], inputs := [.word (encode .cursorOn)] }).map (fun t => (t.inputs.length, t.cfg.c, t.busy))
      = some (1, false, false) := by decide
/-- Reset inside a transaction drops the strobe and the rest (R281, R282). -/
theorem test_step_reset_R281 :
    stepped { State.resetWith eb with
      busy := true, lines := ⟨true, false, 3#2, 0x41#8⟩, seq := [W 5, P true 0#2 0x41#8, W 2],
      cfg := ⟨true, true, false, true, false⟩, inputs := [.reset] } = some (State.resetWith eb) := by decide

/-! ### The assembler (R84 to R86, P2, P5) -/

theorem test_asm_R86 :
    assembleText "BEGIN" = some [0x0100000000000000000000#88]
    ∧ assembleText "WRITE_TEXT 'A'" = some [0x0341000000000000000000#88]
    ∧ assembleText "SET_CURSOR 1, 3" = some [0x0501030000000000000000#88]
    ∧ assembleText "SEND 0x01, 0" = some [0x0801000000000000000000#88] := by decide
theorem test_asm_customChar_P2 :
    assembleText "CUSTOM_CHAR 1, 0x00,0x0A,0x1F,0x1F,0x0E,0x04,0x00,0x00" = some [0x0601000000040E1F1F0A00#88] := by decide
theorem test_asm_send_P5 : assembleText "SEND 0x41, 0xFF" = some [0x0841FF0000000000000000#88] := by decide
theorem test_asm_pseudo :
    assembleText "WRITE_STRING \"AB\"" = some [0x0341000000000000000000#88, 0x0342000000000000000000#88]
    ∧ assembleText "WRITE_STRING \"\"" = some [] ∧ assembleText "CLEAR" = some [0x0201000000000000000000#88]
    ∧ assembleText "HOME" = some [0x0202000000000000000000#88] := by decide
theorem test_asm_errors :
    assembleText "WRITE_CMD 256" = none ∧ assembleText "WRITE_CMD" = none ∧ assembleText "SET_CURSOR 1" = none := by decide

/-! ### Witnesses: for each statement of Obligations.lean with hypotheses, states and operands that meet them,
one for each clause and at the ends of its range. Idle states and the status of a whole state are given as
terms, the rest by evaluation. -/

theorem witness_RequestWordsByOpValue :
    ([0x01, 0x09, 0x10, 0x19].all fun o => decide ((0x01 ≤ o ∧ o ≤ 0x09) ∨ (0x10 ≤ o ∧ o ≤ 0x19))) = true
    ∧ ([0x00, 0x0A, 0x0F, 0x1A, 0xFF].all fun o => decide (o = 0x00 ∨ (0x0A ≤ o ∧ o ≤ 0x0F) ∨ 0x1A ≤ o)) = true
    ∧ (opField 0x1900000000000000000000#88).toNat = 0x19 ∧ (opField 0x1A00000000000000000000#88).toNat = 0x1A := by
  decide
theorem witness_WireWordsAreTheCommandMap : (0x001#9 : WireWord) ≠ 0#9 ∧ (0x1FF#9 : WireWord) ≠ 0#9 := by decide
theorem witness_TransactionIsLowHighLow :
    fb.timing.tAs = 0 ∧ 0 < ({ fb with timing := { tAs := 1 } } : Config).timing.tAs := by decide
theorem witness_EnableLinesFollowMask : 0 < 2 ∧ 1 < 2 := by decide
theorem witness_EightBitByteIsOneTransaction : eb.busWidth = .eightBit ∧ eb.timing = {} := by decide
theorem witness_HighNibbleFirst : fb.busWidth = .fourBit ∧ eb.busWidth = .eightBit ∧ 3 < 4 ∧ 7 < 8 := by decide
theorem witness_NibblesRecombine : (0b01#2 : BitVec 2) ≠ 0#2 ∧ fb.busWidth = .fourBit ∧ eb.busWidth = .eightBit := by
  decide
theorem witness_DelaysAfterAByte :
    ([0x01#8, 0x02#8, 0x03#8].all fun v => decide (v = 0x01#8 ∨ v = 0x02#8 ∨ v = 0x03#8)) = true
    ∧ ([0x00#8, 0x04#8, 0xFF#8].all fun v => decide (¬ (v = 0x01#8 ∨ v = 0x02#8 ∨ v = 0x03#8))) = true := by decide
theorem witness_FramingTraceSizes :
    eb.timing.tAs = 0 ∧ eb.busWidth = .eightBit ∧ fb.timing.tAs = 0 ∧ fb.busWidth = .fourBit
    ∧ isLong 0x01#8 = true ∧ isLong 0x03#8 = true := by decide
theorem witness_FunctionSetByteOfConfiguration :
    (fb.busWidth = .fourBit ∧ 2 ≤ fb.lines ∧ fb.font5x10 = false)
    ∧ (eb20x4.busWidth = .eightBit ∧ 2 ≤ eb20x4.lines ∧ eb20x4.font5x10 = false)
    ∧ ({ fb with lines := 1, lineBase := [0x80#8], font5x10 := true } : Config).wf = true
    ∧ ({ eb with lines := 1, lineBase := [0x80#8] } : Config).wf = true := by decide
theorem witness_CursorByteSetsDdramAddress :
    fb.wf = true ∧ (1#8 : Byte).toNat < fb.lines ∧ (15#8 : Byte).toNat < fb.columns
    ∧ fb.lineBase[(1#8 : Byte).toNat]? = some 0xC0#8 ∧ fb.lineBase[1]? = some 0xC0#8 := by decide
/-- V59, the widest layout, at its last column. -/
theorem witness_CursorByteSetsDdramAddress_V59 :
    let c : Config := { fb with columns := 128, lines := 1, lineBase := [0x80#8] }
    c.wf = true ∧ (0#8 : Byte).toNat < c.lines ∧ (127#8 : Byte).toNat < c.columns
    ∧ c.lineBase[(0#8 : Byte).toNat]? = some 0x80#8 := by decide
theorem witness_GlyphAddressIsSlotTimesEight : (0#8 : Byte).toNat < 8 ∧ (7#8 : Byte).toNat < 8 := by decide
/-- Also of WriteCmdSendsTheCommand, with the bytes of witness_DelaysAfterAByte. -/
theorem witness_WriteCustomSendsASlotBelowEight :
    (7#8 : Byte).toNat < 8 ∧ 8 ≤ (8#8 : Byte).toNat ∧ 8 ≤ (255#8 : Byte).toNat
    ∧ (State.resetWith eb).conf.busWidth = .eightBit ∧ (State.resetWith eb).conf.timing = {} := by decide

/-- An idle block to which a text is presented. -/
def textState : State :=
  { State.resetWith fb with inputs := [0x41#8, 0x42#8].map fun c => .word (encode (.writeText c)) }

theorem witness_TextEmitsItsCodesInOrder :
    textState.conf.wf = true ∧ textState.Idle ∧ textState.enMask ≠ 0#2
    ∧ textState.inputs = [0x41#8, 0x42#8].map fun c => .word (encode (.writeText c)) :=
  ⟨by decide, ⟨rfl, rfl⟩, by decide, rfl⟩
/-- Of both cursor statements, both clauses and the example. -/
theorem witness_SetCursor :
    fb.wf = true ∧ (State.resetWith fb).enMask ≠ 0#2
    ∧ ((1#8 : Byte).toNat < fb.lines ∧ (15#8 : Byte).toNat < fb.columns)
    ∧ ¬ ((2#8 : Byte).toNat < fb.lines ∧ (0#8 : Byte).toNat < fb.columns)
    ∧ ¬ ((0#8 : Byte).toNat < fb.lines ∧ (16#8 : Byte).toNat < fb.columns)
    ∧ fb.columns = 16 ∧ fb.lineBase = [0x80#8, 0xC0#8] := by decide
/-- Of both glyph statements. -/
theorem witness_CustomChar :
    (7#8 : Byte).toNat < 8 ∧ 8 ≤ (8#8 : Byte).toNat ∧ (State.resetWith fb).enMask ≠ 0#2 := by decide
/-- Of the three toggle statements: idle states with every flag clear and with every flag set. -/
theorem witness_Toggles :
    ({ State.resetWith fb with cfg := ⟨true, true, true, true, true⟩ } : State).Idle
    ∧ ({ State.resetWith fb with cfg := ⟨false, false, false, false, false⟩ } : State).Idle :=
  ⟨⟨rfl, rfl⟩, ⟨rfl, rfl⟩⟩
theorem witness_TogglesFollowTheirTemplate :
    (0x10 ≤ (opField 0x1000000000000000000000#88).toNat ∧ (opField 0x19FFFFFFFFFFFFFFFFFFFF#88).toNat ≤ 0x19
      ∧ opField 0x10FFFFFFFFFFFFFFFFFFFF#88 = opField 0x1000000000000000000000#88)
    ∧ toggleFlag .displayOn = some .d ∧ toggleFlag .rightToLeft = some .id ∧ ConfigFlag.c ≠ .d ∧ Instr.writeText 0x41#8 ≠ .updateConfig := by decide
theorem witness_ToggleLaws :
    (toggleFlag .cursorOn).isSome = true ∧ (toggleFlag .blinkOn).isSome = true
    ∧ toggleFlag .cursorOn ≠ toggleFlag .blinkOn ∧ toggleFlag .cursorOn = toggleFlag .cursorOff := by decide
theorem witness_TogglesThenUpdateEmitTwoBytes :
    (∀ i ∈ ([.cursorOn, .cursorOn, .rightToLeft] : List Instr), (toggleFlag i).isSome = true)
    ∧ (State.resetWith fb).Idle ∧ (State.resetWith fb).enMask ≠ 0#2 :=
  ⟨by decide, ⟨rfl, rfl⟩, by decide⟩
theorem witness_SetEnMaskWritesALegalMask :
    (0b01#2 : BitVec 2) ≠ 0#2 ∧ (0b11#2 : BitVec 2) ≠ 0#2 ∧ (0b00#2 : BitVec 2) = 0#2 := by decide
theorem witness_Begin :
    (State.resetWith eb).enMask ≠ 0#2 ∧ (State.resetWith eb).conf.busWidth = .eightBit
    ∧ (State.resetWith fb).conf.busWidth = .fourBit ∧ (State.resetWith fb).conf.timing = {}
    ∧ (State.resetWith eb).conf.timing = {} := by decide

/-- BEGIN's last micro-event is about to be performed. -/
def beginEnds : State :=
  { State.resetWith fb with busy := true, seq := [.setInit .ready], initState := .displayControlSet }

/-- Both ways `init_state` changes: the last SetInit of BEGIN, and a reset in its midst. -/
theorem witness_OnlyBeginWritesInitState :
    Instr.writeText 0x41#8 ≠ .beginInit
    ∧ (stepped beginEnds).map State.initState = some .ready ∧ beginEnds.initState ≠ .ready
    ∧ (stepped { beginEnds with inputs := [.reset] }).map State.initState = some .uninit
    ∧ beginEnds.initState ≠ .uninit := by decide
theorem witness_WireInstructionEqualsItsRequest :
    (decode (.wire9 0x141#9) = .ok (.writeData 0x41#8) ∧ rsField 0x141#9 = true)
    ∧ (decode (.wire9 0x001#9) = .ok .clearDisplay ∧ rsField 0x001#9 = false) := by decide
theorem witness_StepRunsTheAcceptedInstruction :
    textState.conf.wf = true ∧ textState.busy = false
    ∧ textState.inputs = .word (encode (.writeText 0x41#8)) :: [.word (encode (.writeText 0x42#8))]
    ∧ decode (encode (.writeText 0x41#8)) = .ok (.writeText 0x41#8) := by decide
theorem witness_FetchWordRunsNext :
    State.reset.conf.wf = true ∧ decodeTableWord 88 0x1200000000000000000000 = some .cursorOn
    ∧ decodeTableWord 9 0x001 = some .clearDisplay := by decide
theorem witness_ReservedRequestsDoNothing :
    let s : State := { State.resetWith eb with inputs := [.word (.req88 0x2A55660000000000000077#88)] }
    s.conf.wf = true ∧ s.busy = false ∧ s.inputs = .word (.req88 0x2A55660000000000000077#88) :: []
    ∧ 0x1A ≤ (opField 0x2A55660000000000000077#88).toNat := by decide
/-- Nothing presented, nothing presented for one step, and a word presented. -/
theorem witness_SequencerPerformsTheHead :
    beginEnds.conf.wf = true ∧ beginEnds.seq = .setInit .ready :: [] ∧ beginEnds.inputs = [] ∧ beginEnds.busy = true
    ∧ ({ beginEnds with inputs := [.quiet, .reset] } : State).inputs = .quiet :: [.reset]
    ∧ ({ beginEnds with inputs := [.word (encode .cursorOn)] } : State).inputs = .word (encode .cursorOn) :: [] := by
  decide
theorem witness_IdleBlockHolds :
    State.reset.conf.wf = true ∧ State.reset.Idle ∧ State.reset.inputs = []
    ∧ ({ State.reset with inputs := [.quiet] } : State).Idle :=
  ⟨by decide, ⟨rfl, rfl⟩, rfl, ⟨rfl, rfl⟩⟩
theorem witness_ResetCutsTheRequest :
    let s : State := { beginEnds with inputs := [.reset, .quiet] }
    s.conf.wf = true ∧ s.inputs = .reset :: [.quiet] := by decide
/-- Of the two phase encodings and I2cWireIndependentOfMask. -/
theorem witness_Transports :
    fb.transport = .parallel ∧ i2c.transport = .i2c ∧ (State.resetWith i2c).conf.transport = .i2c
    ∧ (State.resetWith i2c).enMask ≠ 0#2 ∧ (0b01#2 : BitVec 2) ≠ 0#2 := by decide
theorem witness_StepAnswersNextOrRefusesConfiguration :
    (State.resetWith fb).conf.wf = true
    ∧ (State.resetWith { i2c with busWidth := .eightBit }).conf.wf = false := by decide
/-- A step that answers next: of ConfigurationNeverChanges, and with the two theorems after it of
TraceGrowsByTheHeadOfSeq and StepKeepsTheInvariant, from a state of a running BEGIN. -/
theorem witness_StepAnswersNext : (stepped beginEnds).map State.trace = some [.setInit .ready] := by decide
theorem witness_StepKeepsTheInvariant : beginEnds.Inv :=
  ⟨by decide, rfl, rfl, rfl, fun _ => ⟨by decide, rfl⟩, .inl rfl⟩
/-- The other three things a step can do, each from a state that meets the invariant: idle, an accepted word,
a reset in the midst of BEGIN. -/
theorem witness_TraceGrowsByTheHeadOfSeq :
    stepped { State.resetWith fb with inputs := [.quiet] } = some (State.resetWith fb)
    ∧ (stepped textState).map (fun t => (t.inputs.length, t.seq.length, t.trace.length)) = some (1, 9, 0)
    ∧ (stepped { beginEnds with inputs := [.reset] }).map (fun t => (t.seq, t.trace)) = some ([], []) := by decide
theorem witness_TraceGrowsByTheHeadOfSeq_inv :
    ({ State.resetWith fb with inputs := [.quiet] } : State).Inv ∧ textState.Inv
    ∧ ({ beginEnds with inputs := [.reset] } : State).Inv :=
  ⟨⟨by decide, rfl, rfl, rfl, fun _ => ⟨by decide, rfl⟩, .inl rfl⟩,
    ⟨by decide, rfl, rfl, rfl, fun _ => ⟨by decide, rfl⟩, .inl rfl⟩,
    ⟨by decide, rfl, rfl, rfl, fun _ => ⟨by decide, rfl⟩, .inl rfl⟩⟩
/-- The other clauses of RequestDurations are met by witness_SetCursor, witness_CustomChar and
witness_ToggleLaws. -/
theorem witness_RequestDurations : (State.resetWith fb).conf.wf = true ∧ (State.resetWith fb).conf.timing = {} := by
  decide
theorem witness_EveryRequestRunsToItsEnd :
    let s : State := { beginEnds with inputs := [.word (encode .cursorOn)] }
    s.conf.wf = true ∧ s.busy = !s.seq.isEmpty ∧ s.inputs = [encode .cursorOn].map .word := by decide
theorem witness_RequestsServedInAcceptanceOrder :
    textState.conf.wf = true ∧ textState.Idle
    ∧ textState.inputs = [encode (.writeText 0x41#8), encode (.writeText 0x42#8)].map .word :=
  ⟨by decide, ⟨rfl, rfl⟩, rfl⟩
/-- Operands that do not fit, the first too large value, at the first and the last place of a line. -/
theorem witness_AssembledLinesAreRequests :
    256 ≤ 256 ∧ 256 ∈ [256, 0, 0, 0, 0, 0, 0, 0, 0] ∧ 256 ∈ [0, 0, 0, 0, 0, 0, 0, 0, 256] ∧ 256 ∈ [65, 256]
    ∧ asmDecoded (.writeCmd 255) = some [.ok (.writeCmd 255#8)] := by decide

end Sys2Proof.Machine.Tests
end

section
/-! The step inverted from its answer, what an acceptance and a move of the sequencer do to `seq`, the trace
and the inputs, and from these the statements of 00_scope.md (O53, O54). -/

namespace Sys2Proof.Machine

/-! ### The step that answers a next state -/

theorem wf_of_step_next {s t : State} (h : step s = .next t) : s.conf.wf = true := by
  by_contra hwf
  rw [step_illFormed s (eq_false_of_ne_true hwf)] at h
  cases h

/-- A step that answers `t` moves the sequencer on, with nothing presented or a word held at a busy block;
or does so in a quiet step; or takes a reset; or accepts the presented word (R71, R281). -/
theorem step_next_cases {s t : State} (h : step s = .next t) :
    ((s.inputs = [] ∨ ∃ w rest, s.inputs = .word w :: rest ∧ s.busy = true) ∧ t = s.advance)
    ∨ (∃ rest, s.inputs = .quiet :: rest ∧ t = ({ s with inputs := rest } : State).advance)
    ∨ (∃ rest, s.inputs = .reset :: rest ∧ t = ({ s with inputs := rest } : State).takeReset)
    ∨ (∃ w rest, s.inputs = .word w :: rest ∧ s.busy = false
        ∧ accept w { s with inputs := rest } = .next t) := by
  obtain ⟨hi, e⟩ | ⟨rest, hi, e⟩ | ⟨rest, hi, e⟩ | ⟨w, rest, hi, hb, e⟩ | ⟨w, rest, hi, hb, e⟩ :=
    step_cases s (wf_of_step_next h)
  all_goals rw [e] at h
  · cases h; exact .inl ⟨.inl hi, rfl⟩
  · cases h; exact .inr (.inl ⟨rest, hi, rfl⟩)
  · cases h; exact .inr (.inr (.inl ⟨rest, hi, rfl⟩))
  · cases h; exact .inl ⟨.inr ⟨w, rest, hi, hb⟩, rfl⟩
  · exact .inr (.inr (.inr ⟨w, rest, hi, hb, h⟩))

/-! ### What the parts of a step leave unchanged -/

theorem exec_next_frame {i : Instr} {s t : State} (h : exec i s = .next t) :
    t.conf = s.conf ∧ t.inputs = s.inputs ∧ t.trace = s.trace := by
  obtain ⟨g, m, es, e⟩ := exec_cases i s
  rw [e] at h
  cases h
  exact ⟨rfl, rfl, rfl⟩

/-- Acceptance emits nothing and takes no further word. -/
theorem accept_next_frame {w : Word} {s t : State} (h : accept w s = .next t) :
    t.conf = s.conf ∧ t.inputs = s.inputs ∧ t.trace = s.trace := by
  obtain ⟨i, -, e⟩ | ⟨op, -, e⟩ | ⟨-, e⟩ := accept_cases w s
  all_goals rw [e] at h
  · exact exec_next_frame h
  · cases h; exact ⟨rfl, rfl, rfl⟩
  · cases h; exact ⟨rfl, rfl, rfl⟩

/-- The sequencer emits the head of `seq` and keeps the rest (R31), or has nothing to emit (R270). -/
theorem advance_seq_trace (s : State) :
    (∃ e es, s.seq = e :: es ∧ s.advance.seq = es ∧ s.advance.trace = s.trace ++ [e])
    ∨ (s.seq = [] ∧ s.advance.seq = [] ∧ s.advance.trace = s.trace) := by
  obtain ⟨hs, ha⟩ | ⟨e, es, hs, ha⟩ := advance_cases s
  · exact .inr ⟨hs, by rw [ha, hs], by rw [ha]⟩
  · exact .inl ⟨e, es, hs, by simp [ha], by simp [ha]⟩

theorem State.Inv.busy_eq_false_iff {s : State} (h : s.Inv) : s.busy = false ↔ s.seq = [] := by
  simp [h.busySeq]

/-! ### The statements -/

/-- Settles O53: none of the four things a step can do writes the configuration. -/
theorem configurationNeverChanges : Obligations.ConfigurationNeverChanges := by
  intro s t h
  obtain ⟨-, rfl⟩ | ⟨rest, -, rfl⟩ | ⟨rest, -, rfl⟩ | ⟨w, rest, -, -, ha⟩ := step_next_cases h
  · exact State.advance_conf s
  · exact State.advance_conf _
  · exact State.takeReset_conf _
  · obtain ⟨hconf, -, -⟩ := accept_next_frame ha
    exact hconf

/-- Settles O54: the sequencer's moves are its first two cases, an acceptance the third, a reset the fourth.
The invariant's `busySeq` rules out a word held at a block with `seq` empty, and gives `seq` empty where a
word is accepted. -/
theorem traceGrowsByTheHeadOfSeq : Obligations.TraceGrowsByTheHeadOfSeq := by
  intro s t inv h
  obtain ⟨hi, rfl⟩ | ⟨rest, hi, rfl⟩ | ⟨rest, hi, rfl⟩ | ⟨w, rest, hi, hb, ha⟩ := step_next_cases h
  · obtain ⟨e, es, hs, hseq, htr⟩ | ⟨hs, hseq, htr⟩ := advance_seq_trace s
    · exact .inl ⟨e, es, hs, hseq, htr, .inl (State.advance_inputs s)⟩
    · obtain hnil | ⟨w, rest, -, hb⟩ := hi
      · exact .inr (.inl ⟨hs, hseq, htr, .inl hnil⟩)
      · simp [inv.busy_eq_false_iff.mpr hs] at hb
  · have hq : s.inputs = .quiet :: ({ s with inputs := rest } : State).advance.inputs := by
      rw [State.advance_inputs, hi]
    obtain ⟨e, es, hs, hseq, htr⟩ | ⟨hs, hseq, htr⟩ := advance_seq_trace { s with inputs := rest }
    · exact .inl ⟨e, es, hs, hseq, htr, .inr hq⟩
    · exact .inr (.inl ⟨hs, hseq, htr, .inr hq⟩)
  · exact .inr (.inr (.inr ⟨hi, State.takeReset_seq _, State.takeReset_trace _⟩))
  · obtain ⟨-, hin, htr⟩ := accept_next_frame ha
    obtain rfl : t.inputs = rest := hin
    exact .inr (.inr (.inl ⟨w, inv.busy_eq_false_iff.mp hb, hb, hi, htr, ha⟩))

end Sys2Proof.Machine
end

section
/-! The statements of 10_state.md (O37, O43, O45, O47, O58, O59): the layout of the status port, the step
that moves the sequencer, what the micro-event list of an accepted instruction keeps, and from that the
invariant of a step. -/

namespace Sys2Proof.Machine

/-! ### The status port -/

theorem getLsbD_statusBit (b : Bool) (i j : Nat) (hj : j < 16) :
    (statusBit b i).getLsbD j = (decide (j = i) && b) := by
  obtain hlt | rfl | hgt := Nat.lt_trichotomy j i
  · simp [statusBit, hlt, hlt.ne]
  · simp [statusBit, hj]
  · simp [statusBit, hgt.ne', BitVec.getLsbD_ofBool, Nat.sub_eq_zero_iff_le, hgt]

/-- One bit of the status port, by its number (R33). -/
theorem getLsbD_statusPort (s : State) (j : Nat) (hj : j < 16) :
    s.statusPort.getLsbD j =
      ((decide (j = 0) && s.busy) || (!decide (j < 1) && s.initState.code.getLsbD (j - 1))
        || (!decide (j < 4) && s.enMask.getLsbD (j - 4))
        || (decide (j = 6) && s.cfg.b) || (decide (j = 7) && s.cfg.c) || (decide (j = 8) && s.cfg.d)
        || (decide (j = 9) && s.cfg.s) || (decide (j = 10) && s.cfg.id)) := by
  have hfield {w : Nat} (x : BitVec w) (i : Nat) :
      (x.setWidth 16 <<< i).getLsbD j = (!decide (j < i) && x.getLsbD (j - i)) := by
    simp [hj]
  simp only [State.statusPort, BitVec.getLsbD_or, hfield, getLsbD_statusBit _ _ j hj]

theorem statusPort_initState (s : State) : s.statusPort.extractLsb' 1 3 = s.initState.code := by
  refine BitVec.eq_of_getLsbD_eq fun i hi => ?_
  have hmask : 1 + i < 4 := by omega
  have hne (k : Nat) (hk : 4 ≤ k := by decide) : 1 + i ≠ k := by omega
  rw [BitVec.getLsbD_extractLsb', getLsbD_statusPort _ _ (by omega)]
  simp [hi, hmask, hne]

theorem statusPort_enMask (s : State) : s.statusPort.extractLsb' 4 2 = s.enMask := by
  refine BitVec.eq_of_getLsbD_eq fun i hi => ?_
  have hne (k : Nat) (hk : 6 ≤ k := by decide) : 4 + i ≠ k := by omega
  rw [BitVec.getLsbD_extractLsb', getLsbD_statusPort _ _ (by omega)]
  simp [hi, hne]

theorem statusPort_reserved (s : State) : s.statusPort.extractLsb' 11 5 = 0#5 := by
  refine BitVec.eq_of_getLsbD_eq fun i hi => ?_
  have hcode : s.initState.code.getLsbD (11 + i - 1) = false := BitVec.getLsbD_of_ge _ _ (by omega)
  have hmask : s.enMask.getLsbD (11 + i - 4) = false := BitVec.getLsbD_of_ge _ _ (by omega)
  have hne (k : Nat) (hk : k ≤ 10 := by decide) : 11 + i ≠ k := by omega
  rw [BitVec.getLsbD_extractLsb', getLsbD_statusPort _ _ (by omega), hcode, hmask]
  simp [hne]

/-- Settles O47: the three fields wider than a bit have their lemmas, the flags are single bits. -/
theorem statusPortLayout : Obligations.StatusPortLayout := by
  refine ⟨fun s => ⟨?_, statusPort_initState s, statusPort_enMask s, ?_, ?_, ?_, ?_, ?_, statusPort_reserved s⟩,
    rfl, rfl, rfl, rfl, rfl, rfl⟩
  all_goals
    rw [getLsbD_statusPort _ _ (by decide)]
    simp

/-- Settles O45: each value of 10_state.md R38, and the port value they make. -/
theorem resetValues : Obligations.ResetValues :=
  ⟨rfl, fun _ => ⟨rfl, rfl, rfl, rfl, rfl, rfl,
    by simp [State.statusPort, statusBit, InitState.code, DisplayConfig.default]⟩⟩

/-! ### The step that moves the sequencer, by what is presented (R31, R71) -/

theorem step_of_nothing {s : State} (hwf : s.conf.wf = true) (hi : s.inputs = []) :
    step s = .next s.advance := by
  simp [step, gatedStep, blockStep, hwf, hi]

theorem step_of_quiet {s : State} {rest : List Input} (hwf : s.conf.wf = true) (hi : s.inputs = .quiet :: rest) :
    step s = .next ({ s with inputs := rest } : State).advance := by
  simp [step, gatedStep, blockStep, hwf, hi]

theorem step_of_busy {s : State} {w : Word} {rest : List Input} (hwf : s.conf.wf = true) (hb : s.busy = true)
    (hi : s.inputs = .word w :: rest) : step s = .next s.advance := by
  simp [step, gatedStep, blockStep, hwf, hi, offer, State.reqReady, hb]

/-- Settles O43: in each of the three presentations the step is `advance` with `left` still presented, and
`advance` performs and emits the head by its kind. -/
theorem sequencerPerformsTheHead : Obligations.SequencerPerformsTheHead := by
  intro s e es left hwf hs hin
  have hstep : step s = .next ({ s with inputs := left } : State).advance := by
    obtain ⟨hi, rfl⟩ | hi | ⟨hb, rfl, w, rest, hi⟩ := hin
    · rw [step_of_nothing hwf hi, ← hi]
    · exact step_of_quiet hwf hi
    · exact step_of_busy hwf hb hi
  rw [hstep, State.advance_cons { s with inputs := left } e es hs]
  cases e <;> rfl

/-! ### What a micro-event list keeps on the lines -/

/-- From low Enable lines on, the list keeps the strobe contract (R131, R141), and on FourBit it drives only
wired data lines (R134). -/
structure Framed (c : Config) (es : List MicroEvent) : Prop where
  strobes    : ∀ l : Lines, l.en = 0#2 → strobesOk l es = true
  unwiredLow : c.busWidth = .fourBit → phasesLowClear es = true

/-- A framed list that writes no `init_state`: the traffic of every request but BEGIN. -/
structure Traffic (c : Config) (es : List MicroEvent) : Prop extends Framed c es where
  noInit : initWrites es = []

theorem strobesOk_append {as bs : List MicroEvent} (hb : ∀ l : Lines, l.en = 0#2 → strobesOk l bs = true) :
    ∀ {l : Lines}, strobesOk l as = true → strobesOk l (as ++ bs) = true := by
  induction as with
  | nil => exact fun {l} h => hb l (by simpa [strobesOk] using h)
  | cons a as ih =>
    intro l h
    cases a with
    | wait n => exact ih h
    | setInit k => exact ih h
    | phase p =>
      simp only [List.cons_append, strobesOk, Bool.and_eq_true] at h ⊢
      exact ⟨h.1, ih h.2⟩

theorem phasesLowClear_append (as bs : List MicroEvent) :
    phasesLowClear (as ++ bs) = (phasesLowClear as && phasesLowClear bs) := List.all_append

theorem phasesLowClear_phase (p : Phase) (es : List MicroEvent) :
    phasesLowClear (.phase p :: es) = (lowClear p.d && phasesLowClear es) := rfl

theorem Framed.nil (c : Config) : Framed c [] := ⟨fun l h => by simp [strobesOk, h], fun _ => rfl⟩

theorem Framed.append {c : Config} {as bs : List MicroEvent} (ha : Framed c as) (hb : Framed c bs) :
    Framed c (as ++ bs) where
  strobes l hl := strobesOk_append hb.strobes (ha.strobes l hl)
  unwiredLow hw := by rw [phasesLowClear_append, ha.unwiredLow hw, hb.unwiredLow hw, Bool.and_self]

theorem Framed.wait (c : Config) (n : Nat) : Framed c [.wait n] :=
  ⟨fun l h => by simp [strobesOk, h], fun _ => rfl⟩

theorem Framed.setInit (c : Config) (k : InitState) : Framed c [.setInit k] :=
  ⟨fun l h => by simp [strobesOk, h], fun _ => rfl⟩

/-- One transaction: RS and data stand before Enable rises and until it has fallen. -/
theorem framed_tx {c : Config} (m : BitVec 2) (rs : Bool) {d : Byte}
    (hd : c.busWidth = .fourBit → lowClear d = true) : Framed c (tx c m rs d) := by
  obtain e | e := tx_cases c m rs d <;> rw [e] <;>
    exact ⟨fun l hl => by simp [strobesOk, phaseEv, Phase.drive, hl],
      fun hw => by simp [phasesLowClear, phaseEv, hd hw]⟩

theorem lowClear_highNibble : ∀ v : Byte, lowClear (highNibble v) = true := by decide

theorem lowClear_lowNibble : ∀ v : Byte, lowClear (lowNibble v) = true := by decide

theorem framed_byteFrames (c : Config) (m : BitVec 2) (v : Byte) (rs : Bool) : Framed c (byteFrames c m v rs) := by
  unfold byteFrames
  split
  next hw => exact framed_tx m rs fun h => by simp [hw] at h
  next => exact (framed_tx m rs fun _ => lowClear_highNibble v).append (framed_tx m rs fun _ => lowClear_lowNibble v)

theorem Traffic.nil (c : Config) : Traffic c [] := ⟨Framed.nil c, rfl⟩

theorem Traffic.append {c : Config} {as bs : List MicroEvent} (ha : Traffic c as) (hb : Traffic c bs) :
    Traffic c (as ++ bs) :=
  ⟨ha.toFramed.append hb.toFramed, by simp [ha.noInit, hb.noInit]⟩

theorem traffic_sendByte (c : Config) (m : BitVec 2) (v : Byte) (rs : Bool) : Traffic c (sendByte c m v rs) :=
  ⟨(framed_byteFrames c m v rs).append (Framed.wait c _), initWrites_sendByte c m v rs⟩

theorem framed_longDelay (c : Config) (v : Byte) : Framed c (longDelay c v) := by
  unfold longDelay
  split
  · exact Framed.wait c _
  · exact Framed.nil c

theorem traffic_sendCmd (c : Config) (m : BitVec 2) (v : Byte) : Traffic c (sendCmd c m v) :=
  ⟨(traffic_sendByte c m v false).toFramed.append (framed_longDelay c v), initWrites_sendCmd c m v⟩

theorem traffic_flatMap_sendByte (c : Config) (m : BitVec 2) (rs : Bool) (rows : List Byte) :
    Traffic c (rows.flatMap fun r => sendByte c m r rs) := by
  induction rows with
  | nil => exact Traffic.nil c
  | cons r rows ih => exact (traffic_sendByte c m r rs).append ih

theorem traffic_glyphEvents (c : Config) (m : BitVec 2) (slot : Byte) (bitmap : BitVec 64) :
    Traffic c (glyphEvents c m slot bitmap) :=
  (traffic_sendCmd c m _).append (traffic_flatMap_sendByte c m true _)

theorem Traffic.ite {c : Config} {p : Prop} [Decidable p] {es : List MicroEvent} (h : Traffic c es) :
    Traffic c (if p then es else []) := by
  split
  · exact h
  · exact Traffic.nil c

/-! ### BEGIN -/

theorem framed_rawCmd {c : Config} (m : BitVec 2) {v : Byte} (us : Nat) (hv : lowClear v = true) :
    Framed c (rawCmd c m v us) :=
  (framed_tx m false fun _ => hv).append (Framed.wait c us)

theorem framed_probeEvents (c : Config) (m : BitVec 2) : Framed c (probeEvents c m) :=
  have hv : lowClear pProbe = true := by decide
  ((framed_rawCmd m _ hv).append (framed_rawCmd m _ hv)).append (framed_rawCmd m _ hv)

theorem framed_switchEvents (c : Config) (m : BitVec 2) : Framed c (switchEvents c m) := by
  unfold switchEvents
  split
  · exact framed_rawCmd m _ (by decide)
  · exact Framed.nil c

theorem framed_beginEvents (c : Config) (m : BitVec 2) (g : DisplayConfig) : Framed c (beginEvents c m g) := by
  have hcmd (v : Byte) : Framed c (sendCmd c m v) := (traffic_sendCmd c m v).toFramed
  have hinit (k : InitState) : Framed c [.setInit k] := Framed.setInit c k
  have hpower : Framed c [.setInit .busWidthProbe, .wait c.timing.tPowerup] :=
    (hinit _).append (Framed.wait c _)
  have hprobe := (hpower.append (framed_probeEvents c m)).append (framed_switchEvents c m)
  have hfunction := (((hprobe.append (hinit .functionSet)).append (hcmd (functionSetByte c))).append
    (hcmd encClear)).append (hcmd encHome)
  have hentry := (hfunction.append (hinit .entryModeSet)).append (hcmd (encEntry g.id g.s))
  have hdisplay := (hentry.append (hinit .displayControlSet)).append (hcmd (encDisplay g.d g.c g.b))
  exact hdisplay.append (hinit .ready)

theorem initWrites_rawCmd (c : Config) (m : BitVec 2) (v : Byte) (us : Nat) : initWrites (rawCmd c m v us) = [] := by
  have e : initWrites [.wait us] = [] := rfl
  simp [rawCmd, initWrites_tx, e]

theorem initWrites_switchEvents (c : Config) (m : BitVec 2) : initWrites (switchEvents c m) = [] := by
  unfold switchEvents
  split
  · exact initWrites_rawCmd c m _ _
  · rfl

theorem initWrites_setInit (k : InitState) (es : List MicroEvent) :
    initWrites (.setInit k :: es) = k :: initWrites es := rfl

theorem initWrites_wait (n : Nat) (es : List MicroEvent) : initWrites (.wait n :: es) = initWrites es := rfl

theorem initWrites_beginEvents (c : Config) (m : BitVec 2) (g : DisplayConfig) :
    initWrites (beginEvents c m g) = beginInitWrites := by
  simp only [beginEvents, probeEvents, initWrites_append, initWrites_setInit, initWrites_wait, initWrites_rawCmd,
    initWrites_switchEvents, initWrites_sendCmd]
  rfl

/-! ### What an acceptance loads -/

/-- Every instruction but BEGIN loads traffic, and writes no mask of 0b00 (R243). -/
theorem exec_loads_traffic {i : Instr} (s : State) (hi : i ≠ .beginInit) :
    ∃ g m es, exec i s = .next (({ s with cfg := g, enMask := m } : State).load es)
      ∧ (s.enMask ≠ 0#2 → m ≠ 0#2) ∧ Traffic s.conf es := by
  have hcmd (v : Byte) : Traffic s.conf (sendCmd s.conf s.enMask v) := traffic_sendCmd s.conf s.enMask v
  have hbyte (v : Byte) (rs : Bool) : Traffic s.conf (sendByte s.conf s.enMask v rs) :=
    traffic_sendByte s.conf s.enMask v rs
  cases i with
  | beginInit => exact absurd rfl hi
  | writeText c => exact ⟨s.cfg, s.enMask, _, rfl, id, hbyte c true⟩
  | writeData v => exact ⟨s.cfg, s.enMask, _, rfl, id, hbyte v true⟩
  | send v rs => exact ⟨s.cfg, s.enMask, _, rfl, id, hbyte v rs⟩
  | writeCustom slot => exact ⟨s.cfg, s.enMask, _, rfl, id, (hbyte slot true).ite⟩
  | setCursor l c => exact ⟨s.cfg, s.enMask, _, rfl, id, (hcmd _).ite⟩
  | customChar slot bitmap =>
    exact ⟨s.cfg, s.enMask, _, rfl, id, (traffic_glyphEvents s.conf s.enMask slot bitmap).ite.append (hcmd encHome)⟩
  | updateConfig => exact ⟨s.cfg, s.enMask, _, rfl, id, (hcmd _).append (hcmd _)⟩
  | setEnMask mask =>
    simp only [exec, execSetEnMask]
    split
    next => exact ⟨s.cfg, s.enMask, [], rfl, id, Traffic.nil _⟩
    next hm => exact ⟨s.cfg, mask, [], rfl, fun _ => hm, Traffic.nil _⟩
  | displayOn | displayOff | cursorOn | cursorOff | blinkOn | blinkOff | autoscrollOn | autoscrollOff
  | leftToRight | rightToLeft => exact ⟨_, s.enMask, [], rfl, id, Traffic.nil _⟩
  | writeCmd | clearDisplay | returnHome | entryModeSet | displayControl | cursorDisplayShift | functionSet
  | setCgramAddr | setDdramAddr => exact ⟨s.cfg, s.enMask, _, rfl, id, hcmd _⟩

theorem exec_beginInit_loads (s : State) :
    exec .beginInit s = .next (({ s with cfg := .default } : State).load (beginEvents s.conf s.enMask .default)) := rfl

/-- An acceptance changes nothing (a reserved request), or loads a framed list, whose writes of `init_state`
are none or BEGIN's five. -/
theorem accept_loads (w : Word) (s : State) :
    accept w s = .next s
    ∨ ∃ g m es, accept w s = .next (({ s with cfg := g, enMask := m } : State).load es)
      ∧ (s.enMask ≠ 0#2 → m ≠ 0#2) ∧ Framed s.conf es
      ∧ (initWrites es = [] ∨ initWrites es = beginInitWrites) := by
  obtain ⟨i, -, e⟩ | ⟨op, -, e⟩ | ⟨-, e⟩ := accept_cases w s
  all_goals rw [e]
  · right
    by_cases hi : i = .beginInit
    · subst hi
      exact ⟨_, s.enMask, _, exec_beginInit_loads s, id, framed_beginEvents _ _ _,
        .inr (initWrites_beginEvents _ _ _)⟩
    · obtain ⟨g, m, es, e, hm, hes⟩ := exec_loads_traffic s hi
      exact ⟨g, m, es, e, hm, hes.toFramed, .inl hes.noInit⟩
  · exact .inl rfl
  · have hes := traffic_sendCmd s.conf s.enMask 0x00#8
    exact .inr ⟨s.cfg, s.enMask, _, rfl, id, hes.toFramed, .inl hes.noInit⟩

/-! ### What writes init_state -/

theorem accept_next_initState {w : Word} {s t : State} (h : accept w s = .next t) : t.initState = s.initState := by
  obtain e | ⟨g, m, es, e, -⟩ := accept_loads w s <;>
    (rw [e] at h; cases h; rfl)

theorem advance_initState_cases (s : State) :
    s.advance.initState = s.initState ∨ ∃ k es, s.seq = .setInit k :: es ∧ s.advance.initState = k := by
  obtain ⟨-, ha⟩ | ⟨e, es, hs, ha⟩ := advance_cases s
  · exact .inl (by rw [ha])
  · rw [ha]
    cases e with
    | phase p => exact .inl rfl
    | wait n => exact .inl rfl
    | setInit k => exact .inr ⟨k, es, hs, rfl⟩

/-- Settles O37: only BEGIN's list holds a SetInit, and of the parts of a step only the sequencer, by
performing one, and reset write `init_state`. -/
theorem onlyBeginWritesInitState : Obligations.OnlyBeginWritesInitState := by
  refine ⟨fun i s hi => ?_, fun s t h hne => ?_⟩
  · obtain ⟨g, m, es, e, -, hes⟩ := exec_loads_traffic s hi
    exact ⟨_, e, rfl, hes.noInit⟩
  · obtain ⟨-, rfl⟩ | ⟨rest, -, rfl⟩ | ⟨rest, hi, rfl⟩ | ⟨w, rest, -, -, ha⟩ := step_next_cases h
    · exact .inl ((advance_initState_cases s).resolve_left hne)
    · exact .inl ((advance_initState_cases { s with inputs := rest }).resolve_left hne)
    · exact .inr ⟨rest, hi, rfl⟩
    · exact absurd (accept_next_initState ha) hne

/-! ### The invariant -/

/-- Settles O58: each clause at the reset values of R38. -/
theorem invariantHoldsAtReset : Obligations.InvariantHoldsAtReset := fun _ =>
  { maskNonzero := show 0b11#2 ≠ 0#2 by decide
    busySeq := rfl
    writeOnly := rfl
    strobes := rfl
    upperNibble := fun _ => ⟨show lowClear 0#8 = true by decide, rfl⟩
    initForward := .inl rfl }

/-- The invariant does not read what the host does next nor what was emitted. -/
theorem State.Inv.withHost {s : State} (h : s.Inv) (inputs : List Input) (trace : List MicroEvent) :
    ({ s with inputs := inputs, trace := trace } : State).Inv :=
  ⟨h.maskNonzero, h.busySeq, h.writeOnly, h.strobes, h.upperNibble, h.initForward⟩

theorem State.Inv.takeReset (s : State) : s.takeReset.Inv :=
  (invariantHoldsAtReset s.conf).withHost s.inputs s.trace

/-- Between requests the Enable lines are low (R142). -/
theorem State.Inv.enable_low {s : State} (h : s.Inv) (hs : s.seq = []) : s.lines.en = 0#2 := by
  simpa [hs, strobesOk] using h.strobes

/-- Between requests the block is UNINIT or READY (R26). -/
theorem State.Inv.uninit_or_ready {s : State} (h : s.Inv) (hs : s.seq = []) :
    s.initState = .uninit ∨ s.initState = .ready := by
  have hf := h.initForward
  rw [hs] at hf
  cases hi : s.initState <;> simp [hi, initWrites, remainingInit, beginInitWrites] at hf ⊢

/-- Accepting a framed list between requests keeps the invariant. -/
theorem State.Inv.load {s : State} (h : s.Inv) (hs : s.seq = []) (g : DisplayConfig) {m : BitVec 2}
    {es : List MicroEvent} (hm : m ≠ 0#2) (hes : Framed s.conf es)
    (hinit : initWrites es = [] ∨ initWrites es = beginInitWrites) :
    (({ s with cfg := g, enMask := m } : State).load es).Inv where
  maskNonzero := hm
  busySeq := rfl
  writeOnly := h.writeOnly
  strobes := hes.strobes _ (h.enable_low hs)
  upperNibble hw := ⟨(h.upperNibble hw).1, hes.unwiredLow hw⟩
  initForward := by
    have hstate := h.uninit_or_ready hs
    obtain hnone | hbegin := hinit
    · left
      obtain hi | hi := hstate <;> simp [hnone, hi, remainingInit]
    · exact .inr ⟨hbegin, hstate⟩

theorem State.Inv.accept {w : Word} {s t : State} (h : s.Inv) (hs : s.seq = []) (ha : accept w s = .next t) :
    t.Inv := by
  obtain e | ⟨g, m, es, e, hm, hes, hinit⟩ := accept_loads w s
  all_goals rw [e] at ha; cases ha
  · exact h
  · exact h.load hs g (hm h.maskNonzero) hes hinit

/-- Whichever write of `init_state` stands at the head, those after it are the ones left from there. -/
theorem remainingInit_of_cons {k i : InitState} {ks : List InitState}
    (h : k :: ks = remainingInit i ∨ k :: ks = beginInitWrites) : ks = remainingInit k := by
  obtain h | h := h
  · cases i <;> cases h <;> rfl
  · cases h; rfl

/-- The sequencer keeps the invariant: performing the head of `seq` moves what the invariant says of it from
what is to come to what has been done. -/
theorem State.Inv.advance {s : State} (h : s.Inv) : s.advance.Inv := by
  obtain ⟨-, ha⟩ | ⟨e, es, hs, ha⟩ := advance_cases s
  · rwa [ha]
  obtain ⟨hmask, -, hrw, hstrobes, hlow, hinit⟩ := h
  rw [hs] at hstrobes hlow hinit
  rw [ha]
  cases e with
  | wait n => exact ⟨hmask, rfl, hrw, hstrobes, hlow, hinit⟩
  | setInit k =>
    rw [initWrites_setInit] at hinit
    exact ⟨hmask, rfl, hrw, hstrobes, hlow, .inl (remainingInit_of_cons (hinit.imp_right And.left))⟩
  | phase p =>
    simp only [strobesOk, Bool.and_eq_true] at hstrobes
    simp only [phasesLowClear_phase, Bool.and_eq_true] at hlow
    exact ⟨hmask, rfl, rfl, hstrobes.2, fun hw => (hlow hw).2, hinit⟩

/-- Settles O59: the sequencer, a reset and an acceptance each keep the invariant, and a word is accepted
only between requests. -/
theorem stepKeepsTheInvariant : Obligations.StepKeepsTheInvariant := by
  intro s t inv h
  obtain ⟨-, rfl⟩ | ⟨rest, -, rfl⟩ | ⟨rest, -, rfl⟩ | ⟨w, rest, -, hb, ha⟩ := step_next_cases h
  · exact inv.advance
  · exact (inv.withHost rest s.trace).advance
  · exact State.Inv.takeReset _
  · exact (inv.withHost rest s.trace).accept (inv.busy_eq_false_iff.mp hb) ha

end Sys2Proof.Machine
end

section
/-! The statements of 20_memory.md (O9, O57): where the bits of a byte go on either bus width, and the run
that serves the presented words one after the other. -/

namespace Sys2Proof.Machine

/-! ### The bits of a byte on the data lines (R55) -/

theorem sendByte_of_fourBit {c : Config} (hw : c.busWidth = .fourBit) (m : BitVec 2) (v : Byte) (rs : Bool) :
    sendByte c m v rs = tx c m rs (highNibble v) ++ tx c m rs (lowNibble v) ++ [postDelay c rs] := by
  simp [sendByte, byteFrames, hw]

theorem sendByte_of_eightBit {c : Config} (hw : c.busWidth = .eightBit) (m : BitVec 2) (v : Byte) (rs : Bool) :
    sendByte c m v rs = tx c m rs v ++ [postDelay c rs] := by
  simp [sendByte, byteFrames, hw]

theorem getLsbD_highNibble (v : Byte) {k : Nat} (hk : k < 4) :
    (highNibble v).getLsbD (4 + k) = v.getLsbD (4 + k) := by
  have hmask : ∀ j < 4, (0xF0#8).getLsbD (4 + j) = true := by decide
  rw [highNibble, BitVec.getLsbD_and, hmask k hk, Bool.and_true]

theorem getLsbD_lowNibble (v : Byte) {k : Nat} (hk : k < 4) : (lowNibble v).getLsbD (4 + k) = v.getLsbD k := by
  have hlt : 4 + k < 8 := by omega
  have hge : ¬ 4 + k < 4 := by omega
  simp only [lowNibble, BitVec.getLsbD_shiftLeft, hlt, hge, Nat.add_sub_cancel_left, decide_true, decide_false,
    Bool.not_false, Bool.true_and]

/-- Settles O9: the two transactions on FourBit carry the nibbles, the one on EightBit the byte itself. -/
theorem highNibbleFirst : Obligations.HighNibbleFirst := fun _ m v rs =>
  ⟨fun hw => ⟨highNibble v, lowNibble v, sendByte_of_fourBit hw m v rs,
      fun _ hk => getLsbD_highNibble v hk, fun _ hk => getLsbD_lowNibble v hk⟩,
    fun hw => ⟨v, sendByte_of_eightBit hw m v rs, fun _ _ => rfl⟩⟩

/-! ### A request in progress runs to its end (R31, R71) -/

theorem step_of_ready {s : State} {w : Word} {rest : List Input} (hwf : s.conf.wf = true) (hb : s.busy = false)
    (hi : s.inputs = .word w :: rest) : step s = accept w { s with inputs := rest } := by
  simp [step, gatedStep, blockStep, hwf, hi, offer, State.reqReady, hb]

/-- While a request is in progress, the words presented wait. -/
theorem step_of_busy_words {s : State} {ws : List Word} (hwf : s.conf.wf = true) (hb : s.busy = true)
    (hi : s.inputs = ws.map .word) : step s = .next s.advance := by
  cases ws with
  | nil => exact step_of_nothing hwf hi
  | cons w ws => exact step_of_busy hwf hb hi

theorem advance_busySeq {s : State} (hbusy : s.busy = !s.seq.isEmpty) :
    s.advance.busy = !s.advance.seq.isEmpty := by
  obtain ⟨-, ha⟩ | ⟨e, es, -, ha⟩ := advance_cases s
  · rwa [ha]
  · simp [ha]

theorem State.drained_idle (s : State) : s.drained.Idle := by
  obtain ⟨-, -, -, hb, hs, -, -⟩ := drained_fields s
  exact ⟨hb, hs⟩

/-- One step for each micro-event of `seq` drains the state. -/
theorem run_drains {s : State} {ws : List Word} (hwf : s.conf.wf = true) (hbusy : s.busy = !s.seq.isEmpty)
    (hi : s.inputs = ws.map .word) : Sys2Proof.core.run s.seq.length s = .next s.drained := by
  induction hs : s.seq generalizing s with
  | nil =>
    have hidle : s.Idle := ⟨by simp [hbusy, hs], hs⟩
    rw [drained_of_idle s hidle, List.length_nil, run_zero]
  | cons e es ih =>
    have hb : s.busy = true := by simp [hbusy, hs]
    have hseq : s.advance.seq = es := by simp [State.advance_cons s e es hs]
    rw [List.length_cons, run_succ_of_next _ (step_of_busy_words hwf hb hi), ← drained_advance s e es hs]
    exact ih (by rwa [State.advance_conf]) (advance_busySeq hbusy) (by rwa [State.advance_inputs]) hseq

theorem perform_emit_withInputs (e : MicroEvent) (s : State) (r : List Input) :
    (({ s with inputs := r } : State).perform e).emit e = { (s.perform e).emit e with inputs := r } := by
  cases e <;> rfl

theorem foldl_perform_emit_withInputs (es : List MicroEvent) (s : State) (r : List Input) :
    es.foldl (fun t e => (t.perform e).emit e) { s with inputs := r }
      = { es.foldl (fun t e => (t.perform e).emit e) s with inputs := r } := by
  induction es generalizing s with
  | nil => rfl
  | cons e es ih => rw [List.foldl_cons, perform_emit_withInputs, ih, List.foldl_cons]

/-- The inputs pass through a request's run. -/
theorem drained_withInputs (s : State) (r : List Input) :
    ({ s with inputs := r } : State).drained = { s.drained with inputs := r } :=
  foldl_perform_emit_withInputs s.seq { s with seq := [], busy := false } r

/-! ### Whole requests, one after the other (R60) -/

theorem served_of_accept {w : Word} {s t : State} (h : accept w s = .next t) : s.served w = t.drained := by
  simp [State.served, h]

theorem served_conf (w : Word) (s : State) : (s.served w).conf = s.conf := by
  obtain ⟨t, ha, -⟩ := accept_inputs w s []
  obtain ⟨hconf, -, -⟩ := accept_next_frame ha
  obtain ⟨hd, -⟩ := drained_fields t
  rw [served_of_accept ha, hd, hconf]

theorem served_idle (w : Word) (s : State) : (s.served w).Idle := by
  obtain ⟨t, ha, -⟩ := accept_inputs w s []
  rw [served_of_accept ha]
  exact t.drained_idle

theorem servedAll_cons (w : Word) (ws : List Word) (s : State) :
    s.servedAll (w :: ws) = (s.served w).servedAll ws := rfl

theorem acceptedLists_cons_of_accept {w : Word} {s t : State} (ws : List Word) (h : accept w s = .next t) :
    State.acceptedLists (w :: ws) s = t.seq :: State.acceptedLists ws t.drained := by
  simp [State.acceptedLists, h]

theorem accept_next_busySeq {w : Word} {s t : State} (hs : s.Idle) (h : accept w s = .next t) :
    t.busy = !t.seq.isEmpty := by
  obtain e | ⟨g, m, es, e, -⟩ := accept_loads w s
  all_goals rw [e] at h; cases h
  · simp [hs.notBusy, hs.noSeq]
  · rfl

/-- The step that accepts a word at an idle block, and the steps of its micro-events, serve it. -/
theorem run_serves_word {s : State} (hwf : s.conf.wf = true) (hs : s.Idle) (w : Word) (ws : List Word) :
    ∃ n, Sys2Proof.core.run n { s with inputs := (w :: ws).map .word }
      = .next { s.served w with inputs := ws.map .word } := by
  obtain ⟨t, ha, hat⟩ := accept_inputs w s (ws.map .word)
  obtain ⟨hconf, -, -⟩ := accept_next_frame ha
  have hstep : step { s with inputs := (w :: ws).map .word } = .next { t with inputs := ws.map .word } :=
    (step_of_ready (s := { s with inputs := (w :: ws).map .word }) hwf hs.notBusy rfl).trans hat
  have hwft : t.conf.wf = true := by rwa [hconf]
  have hbusy := accept_next_busySeq hs ha
  have hdrain := run_drains (s := { t with inputs := ws.map .word }) hwft hbusy rfl
  exact ⟨t.seq.length + 1, by
    rw [run_succ_of_next _ hstep, hdrain, drained_withInputs, served_of_accept ha]⟩

theorem run_serves_words {s : State} (hwf : s.conf.wf = true) (hs : s.Idle) (ws : List Word) :
    ∃ n, Sys2Proof.core.run n { s with inputs := ws.map .word }
      = .next { s.servedAll ws with inputs := [] } := by
  induction ws generalizing s with
  | nil => exact ⟨0, rfl⟩
  | cons w ws ih =>
    obtain ⟨n, hn⟩ := run_serves_word hwf hs w ws
    obtain ⟨k, hk⟩ := ih (by rwa [served_conf]) (served_idle w s)
    exact ⟨n + k, by rw [run_add_of_next k hn, hk, servedAll_cons]⟩

/-- The trace grows by the list each word loads, one list per word. -/
theorem servedAll_trace (ws : List Word) (s : State) :
    (s.servedAll ws).trace = s.trace ++ (State.acceptedLists ws s).flatten := by
  induction ws generalizing s with
  | nil => exact (List.append_nil _).symm
  | cons w ws ih =>
    obtain ⟨t, ha, -⟩ := accept_inputs w s []
    obtain ⟨-, -, htr⟩ := accept_next_frame ha
    obtain ⟨-, -, -, -, -, -, hdr⟩ := drained_fields t
    rw [servedAll_cons, served_of_accept ha, ih, hdr, htr, acceptedLists_cons_of_accept ws ha, List.flatten_cons,
      List.append_assoc]

theorem acceptedLists_length (ws : List Word) (s : State) : (State.acceptedLists ws s).length = ws.length := by
  induction ws generalizing s with
  | nil => rfl
  | cons w ws ih =>
    obtain ⟨t, ha, -⟩ := accept_inputs w s []
    rw [acceptedLists_cons_of_accept ws ha, List.length_cons, List.length_cons, ih]

/-- Settles O57, by induction on the presented words: from an idle block a word is accepted and its list runs
to the end before the next word is accepted. -/
theorem requestsServedInAcceptanceOrder : Obligations.RequestsServedInAcceptanceOrder := by
  intro ws s hwf hs hi
  obtain ⟨n, hn⟩ := run_serves_words hwf hs ws
  rw [← hi] at hn
  exact ⟨n, hn, servedAll_trace ws s, acceptedLists_length ws s⟩

end Sys2Proof.Machine
end

section
/-! The statements of 30_encoding.md (O1 to O5, O39 to O41, O48, O49, O60): the decoder and the encoder of
both formats row by row, the word that a step accepts, the assembler, and the layout of a phase on either
transport. -/

namespace Sys2Proof.Machine

/-! ### Bits side by side -/

/-- Bits put side by side are a shift and an or, at every width they are read in. -/
theorem setWidth_append_eq_shiftLeft_or {n m : Nat} (w : Nat) (x : BitVec n) (y : BitVec m) :
    (x ++ y).setWidth w = (x.setWidth w <<< m) ||| y.setWidth w := by
  refine BitVec.eq_of_getLsbD_eq fun j hj => ?_
  by_cases h : j < m
  · simp [hj, h, BitVec.getLsbD_append]
  · have hy : y.getLsbD j = false := BitVec.getLsbD_of_ge _ _ (by omega)
    simp [hj, h, hy, BitVec.getLsbD_append]

theorem getLsbD_bit (b : Bool) (j : Nat) : (bit b).getLsbD j = (decide (j = 0) && b) := by
  cases b <;> cases j <;> simp [bit]

/-! ### Request words (R70 to R75) -/

/-- Settles O1. -/
theorem writtenOutWordsDecode : Obligations.WrittenOutWordsDecode := by
  unfold Obligations.WrittenOutWordsDecode
  decide

/-- Settles O3: each row reads fields of the word, and the fields of `reqWord` are the values put into it. -/
theorem requestFieldsReadAsTheyStand : Obligations.RequestFieldsReadAsTheyStand := by
  intro a b m
  simp [decode, decodeRequest]

/-- A request word is a request or reserved, by its OP alone. -/
theorem decode_req88_cases (w : ReqWord) :
    (((0x01 ≤ (opField w).toNat ∧ (opField w).toNat ≤ 0x09)
        ∨ (0x10 ≤ (opField w).toNat ∧ (opField w).toNat ≤ 0x19))
      ∧ ∃ i, decode (.req88 w) = .ok i ∧ i.isRequest = true)
    ∨ (((opField w).toNat = 0x00 ∨ (0x0A ≤ (opField w).toNat ∧ (opField w).toNat ≤ 0x0F)
        ∨ 0x1A ≤ (opField w).toNat)
      ∧ decode (.req88 w) = .error (.reservedOp (opField w))) := by
  simp only [decode, decodeRequest]
  split
  case h_20 =>
    refine .inr ⟨?_, rfl⟩
    simp only [imp_false] at *
    omega
  all_goals exact .inl ⟨by omega, _, rfl, rfl⟩

/-- Settles O4: the OP ranges of the two cases exclude each other. -/
theorem requestWordsByOpValue : Obligations.RequestWordsByOpValue := by
  intro w
  obtain ⟨hop, hi⟩ | ⟨hop, hr⟩ := decode_req88_cases w
  · exact ⟨fun _ => hi, fun h => by omega⟩
  · exact ⟨fun h => by omega, fun _ => hr⟩

/-- Each request reads back from the fields it is encoded in. -/
theorem decode_encode_request {i : Instr} (hi : i.isRequest = true) : decode (encode i) = .ok i := by
  have rows := requestFieldsReadAsTheyStand
  unfold Obligations.RequestFieldsReadAsTheyStand at rows
  cases i with
  | send v rs =>
    have hrs : (bit rs).getLsbD 0 = rs := getLsbD_bit rs 0
    simp only [encode, encodeRequest, rows, hrs]
  | setEnMask m =>
    have hm : (m.setWidth 8).extractLsb' 0 2 = m := by revert m; decide
    simp only [encode, encodeRequest, rows, hm]
  | clearDisplay | returnHome | entryModeSet | displayControl | cursorDisplayShift | functionSet
  | setCgramAddr | setDdramAddr | writeData => cases hi
  | _ => simp only [encode, encodeRequest, rows]

/-! ### Wire words (R76, R77) -/

theorem decode_wire9_of_data {w : WireWord} (h : rsField w = true) :
    decode (.wire9 w) = .ok (.writeData (dField w)) := by
  simp [decode, decodeWire, h]

theorem decode_wire9_of_command {w : WireWord} (h : rsField w = false) :
    decode (.wire9 w) = decodeCommand (dField w) := by
  simp [decode, decodeWire, h]

/-- Each row of the command map, at every value of its operand bits. -/
theorem decode_encode_wire {i : Instr} (hi : i.isRequest = false) : decode (encode i) = .ok i := by
  cases i with
  | clearDisplay => rfl
  | returnHome x => revert x; decide
  | entryModeSet id s => revert id s; decide
  | displayControl d c b => revert d c b; decide
  | cursorDisplayShift sc rl x => revert sc rl x; decide
  | functionSet dl n f x => revert dl n f x; decide
  | setCgramAddr a => revert a; decide
  | setDdramAddr a => revert a; decide
  | writeData c =>
    rw [encode, decode_wire9_of_data (rsField_wireWord true c), dField_wireWord]
  | _ => cases hi

/-- Settles O2, format by format. -/
theorem decodeEncodeRoundTrip : Obligations.DecodeEncodeRoundTrip := by
  intro i
  cases hi : i.isRequest with
  | true => exact decode_encode_request hi
  | false => exact decode_encode_wire hi

/-- A non-zero byte is the row of its highest set bit, and that bit with the row's operand bits is the
whole byte. -/
theorem decodeCommand_of_ne_zero {d : Byte} (hd : d ≠ 0#8) :
    ∃ i, decodeCommand d = .ok i ∧ i.isRequest = false ∧ encode i = encodeCommand d := by
  unfold decodeCommand
  split_ifs with h7 h6 h5 h4 h3 h2 h1 h0
  case neg =>
    refine absurd (BitVec.eq_of_getLsbD_eq fun j hj => ?_) hd
    interval_cases j <;> simp [*, -BitVec.getLsbD_eq_getElem]
  all_goals
    refine ⟨_, rfl, rfl, congrArg encodeCommand (BitVec.eq_of_getLsbD_eq fun j hj => ?_)⟩
    interval_cases j <;> simp [*, getLsbD_bit, -BitVec.getLsbD_eq_getElem]

theorem encode_of_decodeCommand {d : Byte} {i : Instr} (h : decodeCommand d = .ok i) :
    encode i = encodeCommand d := by
  have hd : d ≠ 0#8 := by rintro rfl; cases h
  obtain ⟨j, hj, -, he⟩ := decodeCommand_of_ne_zero hd
  obtain rfl : j = i := Except.ok.inj (hj.symm.trans h)
  exact he

/-- Settles O5: a word with RS=1 is WRITE_DATA, and one with RS=0 is the command of its non-zero byte. -/
theorem wireWordsAreTheCommandMap : Obligations.WireWordsAreTheCommandMap := by
  intro w hw
  have hfields := wireWord_fields w
  cases hrs : rsField w with
  | true =>
    rw [hrs] at hfields
    exact ⟨_, decode_wire9_of_data hrs, rfl, congrArg Word.wire9 hfields⟩
  | false =>
    rw [hrs] at hfields
    have hd : dField w ≠ 0#8 := fun hd => hw (by rw [← hfields, hd]; rfl)
    obtain ⟨i, hi, hwire, he⟩ := decodeCommand_of_ne_zero hd
    exact ⟨i, (decode_wire9_of_command hrs).trans hi, hwire, he.trans (congrArg Word.wire9 hfields)⟩

/-! ### What a wire instruction emits (log 5) -/

theorem wireWord_inj {rs rs' : Bool} {d d' : Byte} (h : wireWord rs d = wireWord rs' d') : rs = rs' ∧ d = d' :=
  ⟨by simpa using congrArg rsField h, by simpa using congrArg dField h⟩

/-- A wire instruction of the command class emits the byte it is encoded as. -/
theorem exec_of_encode_eq_command {i : Instr} {d : Byte} (h : encode i = encodeCommand d) (s : State) :
    exec i s = .next (s.emitCommand d) := by
  cases i with
  | writeData c => cases (wireWord_inj (Word.wire9.inj h)).1
  | setCgramAddr a =>
    obtain ⟨-, rfl⟩ := wireWord_inj (Word.wire9.inj h)
    have ha : encCgram (a.setWidth 8) = 0x40 ||| a.setWidth 8 := by revert a; decide
    simp only [exec, execSetCgramAddr, ha]
  | clearDisplay | returnHome | entryModeSet | displayControl | cursorDisplayShift | functionSet
  | setDdramAddr =>
    obtain ⟨-, rfl⟩ := wireWord_inj (Word.wire9.inj h)
    rfl
  | _ => cases h

/-- Settles O39: the byte a wire instruction emits is the byte it was decoded from. -/
theorem wireInstructionEqualsItsRequest : Obligations.WireInstructionEqualsItsRequest := by
  intro w i s h
  constructor <;> intro hrs
  · rw [decode_wire9_of_data hrs] at h
    cases h
    rfl
  · rw [decode_wire9_of_command hrs] at h
    exact exec_of_encode_eq_command (encode_of_decodeCommand h) s

/-! ### The word a step accepts (R71) -/

theorem accept_of_decode {w : Word} {i : Instr} (h : decode w = .ok i) (s : State) : accept w s = exec i s := by
  simp [accept, h]

/-- Settles O40. -/
theorem stepRunsTheAcceptedInstruction : Obligations.StepRunsTheAcceptedInstruction := by
  intro s w rest i hwf hb hin hi
  rw [step_of_ready hwf hb hin, accept_of_decode hi]

theorem decodeTableWord_eq_some {nbits w : Nat} {i : Instr} (h : decodeTableWord nbits w = some i) :
    ∃ v, tableWord nbits w = some v ∧ decode v = .ok i := by
  unfold decodeTableWord at h
  split at h
  case h_2 => cases h
  case h_1 v hv =>
    split at h <;> cases h
    exact ⟨v, hv, ‹_›⟩

/-- Settles O41: the placed word is at the head of the inputs of a block that is not busy. -/
theorem fetchWordRunsNext : Obligations.FetchWordRunsNext := by
  intro s nbits w i hwf hi
  obtain ⟨v, hv, hvi⟩ := decodeTableWord_eq_some hi
  rw [State.withFetchWord, hv]
  exact stepRunsTheAcceptedInstruction (s.present (some v)) v s.inputs i hwf rfl rfl hvi

/-! ### The assembler (R84, R85) -/

@[simp] theorem asmByte_toNat (v : Byte) : asmByte v.toNat = v := BitVec.ofNat_toNat 8 v

@[simp] theorem fitsByte_toNat (v : Byte) : fitsByte v.toNat = true := decide_eq_true v.isLt

theorem fitsByte_eq_false {n : Nat} (h : 256 ≤ n) : fitsByte n = false := decide_eq_false (by omega)

theorem asmBitmap_rows (r0 r1 r2 r3 r4 r5 r6 r7 : Byte) :
    asmBitmap [r0.toNat, r1.toNat, r2.toNat, r3.toNat, r4.toNat, r5.toNat, r6.toNat, r7.toNat]
      = r7 ++ r6 ++ r5 ++ r4 ++ r3 ++ r2 ++ r1 ++ r0 := by
  rw [← BitVec.setWidth_eq (r7 ++ r6 ++ r5 ++ r4 ++ r3 ++ r2 ++ r1 ++ r0)]
  simp only [setWidth_append_eq_shiftLeft_or]
  simp [asmBitmap]

theorem asmDecoded_of_wf {l : AsmLine} (h : l.wf = true) :
    asmDecoded l = some ((asmWords l).map fun w => decode (.req88 w)) := by
  simp [asmDecoded, assemble, h]

theorem assemble_of_not_wf {l : AsmLine} (h : l.wf = false) : assemble l = none := by
  simp [assemble, h]

/-- One operand that does not fit is enough. -/
theorem all_fitsByte_eq_false {ns : List Nat} {n : Nat} (hmem : n ∈ ns) (h : 256 ≤ n) :
    ns.all fitsByte = false :=
  List.all_eq_false.2 ⟨n, hmem, by simp [fitsByte_eq_false h]⟩

/-- The row of CUSTOM_CHAR (R72), with `M = {r7, ..., r0}` (R74). -/
theorem asmDecoded_customChar (s r0 r1 r2 r3 r4 r5 r6 r7 : Byte) :
    asmDecoded (.customChar s.toNat r0.toNat r1.toNat r2.toNat r3.toNat r4.toNat r5.toNat r6.toNat r7.toNat)
      = some [.ok (.customChar s (r7 ++ r6 ++ r5 ++ r4 ++ r3 ++ r2 ++ r1 ++ r0))] := by
  obtain ⟨-, -, -, -, -, row, -⟩ :=
    requestFieldsReadAsTheyStand s 0 (r7 ++ r6 ++ r5 ++ r4 ++ r3 ++ r2 ++ r1 ++ r0)
  rw [asmDecoded_of_wf (by simp [AsmLine.wf]), asmWords, asmByte_toNat, asmBitmap_rows, List.map_singleton, row]

theorem asmDecoded_writeString (cs : List Byte) :
    asmDecoded (.writeString (cs.map BitVec.toNat)) = some (cs.map fun c => .ok (.writeText c)) := by
  have row (c : Byte) : decode (.req88 (asmWord 0x03 c.toNat 0)) = .ok (.writeText c) := by
    obtain ⟨-, -, row, -⟩ := requestFieldsReadAsTheyStand c 0 0
    rw [asmWord, asmByte_toNat]
    exact row
  rw [asmDecoded_of_wf (by simp [AsmLine.wf])]
  simp only [asmWords, List.map_map, Function.comp_def, row]

/-- Settles O60: where the operands fit, the words are those of O3's rows with the operands as bytes; where one
does not, the line is not well-formed. -/
theorem assembledLinesAreRequests : Obligations.AssembledLinesAreRequests := by
  have rows := requestFieldsReadAsTheyStand
  unfold Obligations.RequestFieldsReadAsTheyStand at rows
  have hclear : asmByte 0x01 = 0x01#8 := rfl
  have hhome : asmByte 0x02 = 0x02#8 := rfl
  refine ⟨?_, fun v => ⟨?_, ?_, ?_, ?_⟩, fun a b => ⟨?_, ?_⟩, asmDecoded_customChar,
    ?_, ?_, ?_, ?_, ?_, ?_, ?_, ?_, ?_, ?_, ?_, asmDecoded_writeString, ?_, ?_,
    fun n k hn => ?tooLarge,
    fun s r0 r1 r2 r3 r4 r5 r6 r7 n hmem hn => assemble_of_not_wf (all_fitsByte_eq_false hmem hn),
    fun cs n hmem hn => assemble_of_not_wf (all_fitsByte_eq_false hmem hn)⟩
  case tooLarge => simp [assemble, AsmLine.wf, fitsByte_eq_false hn]
  all_goals
    rw [asmDecoded_of_wf (by simp [AsmLine.wf])]
    simp only [asmWords, asmWord, asmByte_toNat, hclear, hhome, List.map_singleton, rows]

/-! ### A phase on the transports (R81, R82) -/

theorem controlBits_eq_append (p : Phase) : p.controlBits = 0b00000#5 ++ p.en ++ BitVec.ofBool p.rs := by
  rw [← BitVec.setWidth_eq (0b00000#5 ++ p.en ++ BitVec.ofBool p.rs)]
  simp only [setWidth_append_eq_shiftLeft_or]
  simp [Phase.controlBits, bit]

/-- Settles O48. -/
theorem parallelPhaseEncoding : Obligations.ParallelPhaseEncoding := by
  intro c p hc
  refine ⟨?_, rfl⟩
  rw [← controlBits_eq_append]
  simp only [realise, hc]

theorem i2cByte_eq_append (bl : Bool) (p : Phase) :
    p.i2cByte bl = p.d.extractLsb' 4 4 ++ BitVec.ofBool bl ++ BitVec.ofBool (decide (p.en ≠ 0#2)) ++ 0#1
      ++ BitVec.ofBool p.rs := by
  have hnibble : (p.d.extractLsb' 4 4).setWidth 8 <<< 4 = p.d &&& 0xF0#8 := by
    generalize p.d = d
    revert d
    decide
  have hen : (p.en != 0#2) = decide (p.en ≠ 0#2) := by by_cases h : p.en = 0#2 <;> simp [h]
  rw [← BitVec.setWidth_eq (p.d.extractLsb' 4 4 ++ BitVec.ofBool bl
    ++ BitVec.ofBool (decide (p.en ≠ 0#2)) ++ 0#1 ++ BitVec.ofBool p.rs)]
  simp only [setWidth_append_eq_shiftLeft_or, BitVec.shiftLeft_or_distrib, ← BitVec.shiftLeft_add]
  simp [hnibble, hen, Phase.i2cByte, bit]

/-- Settles O49. -/
theorem i2cPhaseEncoding : Obligations.I2cPhaseEncoding := by
  intro c p hc
  rw [← i2cByte_eq_append]
  simp only [realise, hc]

end Sys2Proof.Machine
end

section
/-! The statements of 40_command_encoder.md (O13 to O15, O38): the bit patterns of the command bytes, the
function-set byte of a configuration, the DDRAM address of an in-range cursor, and the emission of each wire
instruction. -/

namespace Sys2Proof.Machine

/-! ### The command map (R101 to R107, R110, R111) -/

theorem encEntry_eq_append (id es : Bool) :
    encEntry id es = 0b000001#6 ++ BitVec.ofBool id ++ BitVec.ofBool es := by
  revert id es
  decide

theorem encDisplay_eq_append (d c b : Bool) :
    encDisplay d c b = 0b00001#5 ++ BitVec.ofBool d ++ BitVec.ofBool c ++ BitVec.ofBool b := by
  revert d c b
  decide

theorem encShift_eq_append (sc rl : Bool) :
    encShift sc rl = 0b0001#4 ++ BitVec.ofBool sc ++ BitVec.ofBool rl ++ 0b00#2 := by
  revert sc rl
  decide

theorem encFunction_eq_append (dl n f : Bool) :
    encFunction dl n f = 0b001#3 ++ BitVec.ofBool dl ++ BitVec.ofBool n ++ BitVec.ofBool f ++ 0b00#2 := by
  revert dl n f
  decide

/-- The mask keeps the six address bits, and the command bit stands above them (R107). -/
theorem encCgram_eq_append (a : Byte) : encCgram a = 0b01#2 ++ a.extractLsb' 0 6 := by
  have hmask : (a.extractLsb' 0 6).setWidth 8 = a &&& 0x3F#8 := by
    revert a
    decide
  rw [← BitVec.setWidth_eq (0b01#2 ++ a.extractLsb' 0 6), setWidth_append_eq_shiftLeft_or, hmask]
  rfl

/-- Settles O13, pattern by pattern. -/
theorem commandBytesAreTheMap : Obligations.CommandBytesAreTheMap :=
  ⟨rfl, rfl, encEntry_eq_append, encDisplay_eq_append, encShift_eq_append, encFunction_eq_append,
    encCgram_eq_append, rfl, rfl, rfl, rfl⟩

/-! ### The function-set byte (R112) -/

/-- DL, N and F stand at bits 4, 3 and 2. -/
theorem getLsbD_encFunction (dl n f : Bool) :
    (encFunction dl n f).getLsbD 4 = dl ∧ (encFunction dl n f).getLsbD 3 = n
      ∧ (encFunction dl n f).getLsbD 2 = f := by
  revert dl n f
  decide

/-- Settles O14: with bus width, line count and font known, FS is a closed byte, and its bits are the
operands of `encFunction`. -/
theorem functionSetByteOfConfiguration : Obligations.FunctionSetByteOfConfiguration := by
  intro c
  refine ⟨?_, ?_, ?_, ?_, ?_, getLsbD_encFunction _ _ _⟩
  all_goals
    intro hw hl hf
    simp only [functionSetByte, hw, hl, hf]
    rfl

/-! ### The cursor byte (R108) -/

theorem baseOk_of_wf {c : Config} (h : c.wf = true) {i : Nat} {base : Byte} (hb : c.lineBase[i]? = some base) :
    c.baseOk base = true := by
  simp only [Config.wf, Bool.and_eq_true] at h
  obtain ⟨⟨_, hall⟩, _⟩ := h
  exact List.all_eq_true.1 hall base (List.mem_of_getElem? hb)

/-- A column of the line does not carry out of the byte, so bit 7 of the base stays. -/
theorem getLsbD_seven_of_baseOk {c : Config} {base column : Byte} (hb : c.baseOk base = true)
    (hcol : column.toNat < c.columns) : (base + column).getLsbD 7 = true := by
  obtain ⟨hmsb, hend⟩ : base.msb = true ∧ base.toNat + c.columns - 1 ≤ 0xFF := by
    simpa [Config.baseOk] using hb
  have hbase : 128 ≤ base.toNat := by simpa [BitVec.msb_eq_decide] using hmsb
  have hsum : (base + column).toNat = base.toNat + column.toNat :=
    BitVec.toNat_add_of_lt (by omega)
  change (base + column).msb = true
  rw [BitVec.msb_eq_decide, hsum, decide_eq_true_eq]
  omega

theorem decode_command_of_getLsbD_seven {d : Byte} (h : d.getLsbD 7 = true) :
    decode (.wire9 (wireWord false d)) = .ok (.setDdramAddr (d.extractLsb' 0 7)) := by
  rw [decode_wire9_of_command (rsField_wireWord false d), dField_wireWord, decodeCommand, if_pos h]

theorem cursorByte_of_lineBase {c : Config} {line base : Byte} (hb : c.lineBase[line.toNat]? = some base)
    (column : Byte) : cursorByte c line column = base + column := by
  simp [cursorByte, lineBaseOf, List.getD, hb]

theorem State.load_of_ne_nil {es : List MicroEvent} (h : es ≠ []) (s : State) :
    s.load es = { s with seq := es, busy := true } := by
  simp [State.load, h]

/-- A position in range loads the command of its address byte (R210). -/
theorem exec_setCursor_of_inRange {line column : Byte} {s : State} (hl : line.toNat < s.conf.lines)
    (hcol : column.toNat < s.conf.columns) :
    exec (.setCursor line column) s =
      .next (s.load (sendCmd s.conf s.enMask (encDdram (cursorByte s.conf line column)))) := by
  have hok : cursorOk s.conf line column = true := by simp [cursorOk, hl, hcol]
  simp only [exec, execSetCursor, hok, if_true]

/-- Settles O15: by R7 a line ends at 0xFF at the latest, so the byte of every column keeps bit 7 of its
base. -/
theorem cursorByteSetsDdramAddress : Obligations.CursorByteSetsDdramAddress := by
  refine ⟨fun _ => rfl, fun line column s base hwf hl hcol hb => ?inRange, fun c hc => ?at0xC3⟩
  case inRange =>
    have h7 := getLsbD_seven_of_baseOk (baseOk_of_wf hwf hb) hcol
    refine ⟨h7, decode_command_of_getLsbD_seven h7, ?_⟩
    rw [exec_setCursor_of_inRange hl hcol, cursorByte_of_lineBase hb, State.load_of_ne_nil (sendCmd_ne_nil _ _ _)]
  case at0xC3 =>
    rw [cursorByte_of_lineBase hc]
    rfl

/-! ### What a wire instruction emits (R101 to R109; log 5) -/

/-- The whole next state of a wire instruction of the command class, from the byte it is encoded as. -/
theorem exec_command_loads {i : Instr} {d : Byte} (h : encode i = encodeCommand d) (s : State) :
    exec i s = .next { s with seq := sendCmd s.conf s.enMask d, busy := true } := by
  rw [exec_of_encode_eq_command h, State.emitCommand, State.load_of_ne_nil (sendCmd_ne_nil _ _ _)]

theorem exec_writeData_loads (c : Byte) (s : State) :
    exec (.writeData c) s = .next { s with seq := sendByte s.conf s.enMask c true, busy := true } := by
  rw [← State.load_of_ne_nil (sendByte_ne_nil _ _ _ _)]
  rfl

/-- Settles O38: each byte is that of the instruction's row in the encoder. -/
theorem wireInstructionsAreEmitted : Obligations.WireInstructionsAreEmitted := fun s =>
  ⟨exec_command_loads rfl s, fun _ => exec_command_loads rfl s, fun _ _ => exec_command_loads rfl s,
    fun _ _ _ => exec_command_loads rfl s, fun _ _ _ => exec_command_loads rfl s,
    fun _ _ _ _ => exec_command_loads rfl s, fun _ => exec_command_loads rfl s,
    fun _ => exec_command_loads rfl s, fun c => exec_writeData_loads c s⟩

end Sys2Proof.Machine
end

section
/-! The statements of 41_bus_framer.md (O6 to O8, O10 to O12, O17): the two shapes of a transaction, the
Enable values of a micro-event list, the frames and delays of a byte, their counts, and SEND. -/

namespace Sys2Proof.Machine

/-! ### One transaction (R131) -/

theorem tx_of_tAs_zero {c : Config} (h : c.timing.tAs = 0) (m : BitVec 2) (rs : Bool) (d : Byte) :
    tx c m rs d = [phaseEv rs 0#2 d, phaseEv rs m d, .wait c.timing.tPweh, phaseEv rs 0#2 d] := by
  simp [tx, setupWait, h]

theorem tx_of_tAs_pos {c : Config} (h : 0 < c.timing.tAs) (m : BitVec 2) (rs : Bool) (d : Byte) :
    tx c m rs d =
      [phaseEv rs 0#2 d, .wait c.timing.tAs, phaseEv rs m d, .wait c.timing.tPweh, phaseEv rs 0#2 d] := by
  simp [tx, setupWait, h]

/-- Settles O6: the set-up wait is there exactly when `T_AS` is above 0. -/
theorem transactionIsLowHighLow : Obligations.TransactionIsLowHighLow := fun _ m rs d =>
  ⟨fun h => tx_of_tAs_zero h m rs d, fun h => tx_of_tAs_pos h m rs d⟩

/-! ### The Enable values of a list (R132) -/

/-- Every `Phase` of the list has the Enable lines low or drives exactly the lines of `m`. -/
def EnablesWithin (m : BitVec 2) (es : List MicroEvent) : Prop :=
  ∀ p : Phase, MicroEvent.phase p ∈ es → p.en = 0#2 ∨ p.en = m

@[simp] theorem enablesWithin_nil (m : BitVec 2) : EnablesWithin m [] := by simp [EnablesWithin]

@[simp] theorem enablesWithin_wait (m : BitVec 2) (n : Nat) (es : List MicroEvent) :
    EnablesWithin m (.wait n :: es) ↔ EnablesWithin m es := by simp [EnablesWithin]

@[simp] theorem enablesWithin_setInit (m : BitVec 2) (k : InitState) (es : List MicroEvent) :
    EnablesWithin m (.setInit k :: es) ↔ EnablesWithin m es := by simp [EnablesWithin]

@[simp] theorem enablesWithin_phaseEv (m : BitVec 2) (rs : Bool) (en : BitVec 2) (d : Byte)
    (es : List MicroEvent) :
    EnablesWithin m (phaseEv rs en d :: es) ↔ (en = 0#2 ∨ en = m) ∧ EnablesWithin m es := by
  simp [EnablesWithin, phaseEv, or_imp, forall_and]

@[simp] theorem enablesWithin_append (m : BitVec 2) (as bs : List MicroEvent) :
    EnablesWithin m (as ++ bs) ↔ EnablesWithin m as ∧ EnablesWithin m bs := by
  simp [EnablesWithin, or_imp, forall_and]

@[simp] theorem enablesWithin_tx (c : Config) (m : BitVec 2) (rs : Bool) (d : Byte) :
    EnablesWithin m (tx c m rs d) := by
  obtain e | e := tx_cases c m rs d <;> simp [e]

@[simp] theorem enablesWithin_sendByte (c : Config) (m : BitVec 2) (v : Byte) (rs : Bool) :
    EnablesWithin m (sendByte c m v rs) := by
  cases hw : c.busWidth <;> simp [sendByte, byteFrames, postDelay, hw]

@[simp] theorem enablesWithin_sendCmd (c : Config) (m : BitVec 2) (v : Byte) :
    EnablesWithin m (sendCmd c m v) := by
  cases hv : isLong v <;> simp [sendCmd, longDelay, hv]

@[simp] theorem enablesWithin_rawCmd (c : Config) (m : BitVec 2) (v : Byte) (us : Nat) :
    EnablesWithin m (rawCmd c m v us) := by simp [rawCmd]

@[simp] theorem enablesWithin_switchEvents (c : Config) (m : BitVec 2) :
    EnablesWithin m (switchEvents c m) := by
  cases hw : c.busWidth <;> simp [switchEvents, hw]

theorem enablesWithin_beginEvents (c : Config) (m : BitVec 2) (g : DisplayConfig) :
    EnablesWithin m (beginEvents c m g) := by simp [beginEvents, probeEvents]

@[simp] theorem enablesWithin_flatMap_sendByte (c : Config) (m : BitVec 2) (rs : Bool) (rows : List Byte) :
    EnablesWithin m (rows.flatMap fun r => sendByte c m r rs) := by
  induction rows with
  | nil => simp
  | cons r rows ih => simp [ih]

theorem enablesWithin_glyphEvents (c : Config) (m : BitVec 2) (slot : Byte) (bitmap : BitVec 64) :
    EnablesWithin m (glyphEvents c m slot bitmap) := by simp [glyphEvents]

theorem EnablesWithin.ite {m : BitVec 2} {p : Prop} [Decidable p] {es : List MicroEvent}
    (h : EnablesWithin m es) : EnablesWithin m (if p then es else []) := by
  split
  · exact h
  · exact enablesWithin_nil m

/-- The list an instruction loads is framed with the mask the block holds after its acceptance: SET_EN_MASK,
the one that writes the mask, loads nothing (R243). -/
theorem exec_enablesWithin (i : Instr) (s : State) :
    ∃ t, exec i s = .next t ∧ EnablesWithin t.enMask t.seq := by
  have hcmd (v : Byte) : EnablesWithin s.enMask (sendCmd s.conf s.enMask v) := enablesWithin_sendCmd _ _ v
  have hbyte (v : Byte) (rs : Bool) : EnablesWithin s.enMask (sendByte s.conf s.enMask v rs) :=
    enablesWithin_sendByte _ _ v rs
  cases i with
  | beginInit => exact ⟨_, rfl, enablesWithin_beginEvents s.conf s.enMask _⟩
  | writeText c => exact ⟨_, rfl, hbyte c true⟩
  | writeData v => exact ⟨_, rfl, hbyte v true⟩
  | send v rs => exact ⟨_, rfl, hbyte v rs⟩
  | writeCustom slot => exact ⟨_, rfl, (hbyte slot true).ite⟩
  | setCursor l c => exact ⟨_, rfl, (hcmd _).ite⟩
  | customChar slot bitmap =>
    have hglyph := enablesWithin_glyphEvents s.conf s.enMask slot bitmap
    exact ⟨_, rfl, (enablesWithin_append _ _ _).2 ⟨hglyph.ite, hcmd encHome⟩⟩
  | updateConfig => exact ⟨_, rfl, (enablesWithin_append _ _ _).2 ⟨hcmd _, hcmd _⟩⟩
  | setEnMask | displayOn | displayOff | cursorOn | cursorOff | blinkOn | blinkOff | autoscrollOn
  | autoscrollOff | leftToRight | rightToLeft => exact ⟨_, rfl, enablesWithin_nil _⟩
  | writeCmd | clearDisplay | returnHome | entryModeSet | displayControl | cursorDisplayShift | functionSet
  | setCgramAddr | setDdramAddr => exact ⟨_, rfl, hcmd _⟩

/-- Settles O7: the phases of `tx` read off its two shapes, and for an instruction the mask it leaves. -/
theorem enableLinesFollowMask : Obligations.EnableLinesFollowMask := by
  refine ⟨fun c m rs d => ⟨?values, fun k _ => ?line⟩, exec_enablesWithin⟩
  case values | line => obtain e | e := tx_cases c m rs d <;> simp [e, phaseEv]

/-! ### The frames of a byte (R133, R134, R138) -/

/-- Settles O8; the default `T_POST_DATA` is 2. -/
theorem eightBitByteIsOneTransaction : Obligations.EightBitByteIsOneTransaction := by
  intro c m v rs hw
  refine ⟨sendByte_of_eightBit hw m v rs, fun ht => ?_⟩
  rw [sendByte_of_eightBit hw, postDelay, ht]
  rfl

/-- Settles O10: the strobes on FourBit carry the two nibbles, whose unwired lines are 0. -/
theorem nibblesRecombine : Obligations.NibblesRecombine := by
  intro c m v rs hm
  have hstrobes := strobes_sendByte c m v rs hm
  constructor <;> intro hw <;> rw [hw] at hstrobes
  · exact ⟨highNibble v, lowNibble v, hstrobes, recombine_nibbles v, beq_iff_eq.1 (lowClear_highNibble v),
      beq_iff_eq.1 (lowClear_lowNibble v)⟩
  · exact hstrobes

/-! ### The delays after a byte (R135, R139) -/

theorem isLong_iff : ∀ v : Byte, isLong v = true ↔ v = 0x01#8 ∨ v = 0x02#8 ∨ v = 0x03#8 := by decide

theorem sendCmd_of_isLong {v : Byte} (h : isLong v = true) (c : Config) (m : BitVec 2) :
    sendCmd c m v = sendByte c m v false ++ [.wait c.timing.tLong] := by
  simp [sendCmd, longDelay, h]

theorem sendCmd_of_not_isLong {v : Byte} (h : ¬ isLong v = true) (c : Config) (m : BitVec 2) :
    sendCmd c m v = sendByte c m v false := by
  simp [sendCmd, longDelay, h]

/-- Settles O11: the long-delay class is the three bytes. -/
theorem delaysAfterAByte : Obligations.DelaysAfterAByte := by
  intro c m v
  rw [← isLong_iff v]
  exact ⟨rfl, rfl, fun h => sendCmd_of_isLong h c m, fun h => sendCmd_of_not_isLong h c m⟩

/-! ### Counts (R144) -/

theorem phaseCount_tx (c : Config) (m : BitVec 2) (rs : Bool) (d : Byte) : phaseCount (tx c m rs d) = 3 := by
  obtain e | e := tx_cases c m rs d <;> rw [e] <;> rfl

theorem waitCount_tx {c : Config} (h : c.timing.tAs = 0) (m : BitVec 2) (rs : Bool) (d : Byte) :
    waitCount (tx c m rs d) = 1 := by
  rw [tx_of_tAs_zero h]
  rfl

theorem phaseCount_wait (n : Nat) : phaseCount [.wait n] = 0 := rfl

theorem waitCount_wait (n : Nat) : waitCount [.wait n] = 1 := rfl

/-- Settles O12: the counts of a byte are those of its transactions and of the delays after it. -/
theorem framingTraceSizes : Obligations.FramingTraceSizes := by
  intro c m v rs hAs
  refine ⟨phaseCount_tx c m rs v, waitCount_tx hAs m rs v, fun hw => ?eightBit, fun hw => ?fourBit,
    fun hv => ?long⟩
  case eightBit =>
    rw [sendByte_of_eightBit hw]
    simp [phaseCount_tx, waitCount_tx hAs, postDelay, phaseCount_wait, waitCount_wait]
  case fourBit =>
    rw [sendByte_of_fourBit hw]
    simp [phaseCount_tx, waitCount_tx hAs, postDelay, phaseCount_wait, waitCount_wait]
  case long =>
    rw [sendCmd_of_isLong hv]
    simp [phaseCount_wait, waitCount_wait]

/-! ### SEND (R140) -/

theorem exec_send_loads (v : Byte) (rs : Bool) (s : State) :
    exec (.send v rs) s = .next { s with seq := sendByte s.conf s.enMask v rs, busy := true } := by
  rw [← State.load_of_ne_nil (sendByte_ne_nil _ _ _ _)]
  rfl

/-- Settles O17: SEND loads the frames of `sendByte` and its one delay, by RS. -/
theorem sendFramesTheRawByte : Obligations.SendFramesTheRawByte := exec_send_loads

end Sys2Proof.Machine
end

section
/-! The statements of 42_initialization.md (O34 to O36): the whole next state of BEGIN, the strobes of its list,
and the counts and the duration of that list. -/

namespace Sys2Proof.Machine

/-! ### What BEGIN loads (R160, R167) -/

theorem beginEvents_ne_nil (c : Config) (m : BitVec 2) (g : DisplayConfig) : beginEvents c m g ≠ [] := by
  simp [beginEvents]

theorem exec_beginInit (s : State) :
    exec .beginInit s =
      .next { s with cfg := .default, seq := beginEvents s.conf s.enMask .default, busy := true } := by
  rw [exec_beginInit_loads, State.load_of_ne_nil (beginEvents_ne_nil _ _ _)]

theorem switchEvents_of_fourBit {c : Config} (hw : c.busWidth = .fourBit) (m : BitVec 2) :
    switchEvents c m = rawCmd c m pSwitch4 c.timing.tSwitch4 := by simp [switchEvents, hw]

theorem switchEvents_of_eightBit {c : Config} (hw : c.busWidth = .eightBit) (m : BitVec 2) :
    switchEvents c m = [] := by simp [switchEvents, hw]

theorem switchEvents_eq_ite (c : Config) (m : BitVec 2) :
    switchEvents c m = if c.busWidth = .fourBit then rawCmd c m pSwitch4 c.timing.tSwitch4 else [] := by
  cases hw : c.busWidth
  case fourBit => exact switchEvents_of_fourBit hw m
  case eightBit => exact switchEvents_of_eightBit hw m

/-- Settles O34: from the default configuration the encoder gives the bytes 0x06 and 0x0C. -/
theorem beginSequence : Obligations.BeginSequence := fun s => by
  rw [exec_beginInit, beginEvents, switchEvents_eq_ite]
  rfl

/-! ### The strobes of BEGIN (R172) -/

/-- The bytes BEGIN sends whole, at the configured width, after the probes and the switch (R165, R166, R168). -/
def beginCommands (c : Config) (g : DisplayConfig) : List Byte :=
  [functionSetByte c, encClear, encHome, encEntry g.id g.s, encDisplay g.d g.c g.b]

theorem strobes_rawCmd (c : Config) {m : BitVec 2} (h : m ≠ 0#2) (v : Byte) (us : Nat) :
    strobes (rawCmd c m v us) = [⟨false, v⟩] := by
  rw [rawCmd, strobes_append, strobes_tx c m false v h]
  rfl

/-- The writes of `init_state` and the power-up wait strobe nothing. -/
theorem strobes_beginEvents (c : Config) {m : BitVec 2} (h : m ≠ 0#2) (g : DisplayConfig) :
    strobes (beginEvents c m g) =
      [⟨false, pProbe⟩, ⟨false, pProbe⟩, ⟨false, pProbe⟩] ++ strobes (switchEvents c m)
        ++ strobes ((beginCommands c g).flatMap (sendCmd c m)) := by
  have hnil : strobes [] = [] := rfl
  simp [beginEvents, probeEvents, beginCommands, strobes_rawCmd c h, strobes_setInit, strobes_wait, hnil]

theorem wires_flatMap_sendCmd (c : Config) {m : BitVec 2} (h : m ≠ 0#2) (vs : List Byte) :
    wires c.busWidth (vs.flatMap (sendCmd c m)) = vs.map fun v => ⟨false, v⟩ := by
  induction vs with
  | nil => exact wires_nil _
  | cons v vs ih => rw [List.flatMap_cons, wires_sendCmd_append c m v h, ih, List.map_cons]

/-- A byte on FourBit is two strobes. -/
theorem length_strobes_flatMap_sendCmd {c : Config} (hw : c.busWidth = .fourBit) {m : BitVec 2} (h : m ≠ 0#2)
    (vs : List Byte) : (strobes (vs.flatMap (sendCmd c m))).length = 2 * vs.length := by
  have hbyte (v : Byte) : (strobes (sendCmd c m v)).length = 2 := by
    rw [strobes_sendCmd, strobes_sendByte c m v false h, hw]
    rfl
  induction vs with
  | nil => rfl
  | cons v vs ih =>
    rw [List.flatMap_cons, strobes_append, List.length_append, hbyte, ih, List.length_cons]
    omega

/-- Settles O35: after the raw strobes, what BEGIN strobes carries its five command bytes at either width. -/
theorem beginStrobeOrder : Obligations.BeginStrobeOrder := by
  intro s hm
  have hstrobes := strobes_beginEvents s.conf hm .default
  have hwires := wires_flatMap_sendCmd s.conf hm (beginCommands s.conf .default)
  refine ⟨_, exec_beginInit s, fun hw => ?eightBit, fun hw => ?fourBit⟩
  case eightBit =>
    rw [hw] at hwires
    rw [hstrobes, switchEvents_of_eightBit hw]
    exact congrArg ([⟨false, pProbe⟩, ⟨false, pProbe⟩, ⟨false, pProbe⟩] ++ ·) hwires
  case fourBit =>
    rw [hw] at hwires
    refine ⟨_, ?_, length_strobes_flatMap_sendCmd hw hm (beginCommands s.conf .default), hwires⟩
    rw [hstrobes, switchEvents_of_fourBit hw, strobes_rawCmd s.conf hm]
    rfl

/-! ### The counts and the duration of BEGIN (R171) -/

theorem perWidth_of_fourBit {c : Config} (hw : c.busWidth = .fourBit) (fb eb : Nat) : perWidth c fb eb = fb := by
  simp [perWidth, hw]

theorem perWidth_of_eightBit {c : Config} (hw : c.busWidth = .eightBit) (fb eb : Nat) : perWidth c fb eb = eb := by
  simp [perWidth, hw]

theorem phaseCount_setInit (k : InitState) (es : List MicroEvent) :
    phaseCount (.setInit k :: es) = phaseCount es := rfl

theorem waitCount_setInit (k : InitState) (es : List MicroEvent) :
    waitCount (.setInit k :: es) = waitCount es := rfl

theorem totalWait_setInit (k : InitState) (es : List MicroEvent) :
    totalWait (.setInit k :: es) = totalWait es := Nat.zero_add _

theorem totalWait_wait (n : Nat) : totalWait [.wait n] = n := rfl

theorem phaseCount_rawCmd (c : Config) (m : BitVec 2) (v : Byte) (us : Nat) : phaseCount (rawCmd c m v us) = 3 := by
  rw [rawCmd, phaseCount_append, phaseCount_tx, phaseCount_wait]

theorem waitCount_rawCmd {c : Config} (h : c.timing.tAs = 0) (m : BitVec 2) (v : Byte) (us : Nat) :
    waitCount (rawCmd c m v us) = 2 := by
  rw [rawCmd, waitCount_append, waitCount_tx h, waitCount_wait]

theorem totalWait_rawCmd (c : Config) (m : BitVec 2) (v : Byte) (us : Nat) :
    totalWait (rawCmd c m v us) = c.timing.tAs + c.timing.tPweh + us := by
  rw [rawCmd, totalWait_append, totalWait_tx, totalWait_wait]

theorem totalWait_sendByte (c : Config) (m : BitVec 2) (v : Byte) (rs : Bool) :
    totalWait (sendByte c m v rs) =
      perWidth c 2 1 * (c.timing.tAs + c.timing.tPweh)
        + if rs then c.timing.tPostData else c.timing.tPostCmd := by
  cases hw : c.busWidth
  case fourBit =>
    rw [sendByte_of_fourBit hw, perWidth_of_fourBit hw, postDelay]
    simp only [totalWait_append, totalWait_tx, totalWait_wait, Nat.two_mul]
  case eightBit =>
    rw [sendByte_of_eightBit hw, perWidth_of_eightBit hw, postDelay]
    simp only [totalWait_append, totalWait_tx, totalWait_wait, Nat.one_mul]

theorem phaseCount_sendByte (c : Config) (m : BitVec 2) (v : Byte) (rs : Bool) :
    phaseCount (sendByte c m v rs) = perWidth c 6 3 := by
  cases hw : c.busWidth
  case fourBit =>
    rw [sendByte_of_fourBit hw, perWidth_of_fourBit hw, postDelay]
    simp only [phaseCount_append, phaseCount_tx, phaseCount_wait]
  case eightBit =>
    rw [sendByte_of_eightBit hw, perWidth_of_eightBit hw, postDelay]
    simp only [phaseCount_append, phaseCount_tx, phaseCount_wait]

theorem waitCount_sendByte {c : Config} (h : c.timing.tAs = 0) (m : BitVec 2) (v : Byte) (rs : Bool) :
    waitCount (sendByte c m v rs) = perWidth c 3 2 := by
  obtain ⟨-, -, heb, hfb, -⟩ := framingTraceSizes c m v rs h
  cases hw : c.busWidth
  case fourBit => rw [(hfb hw).2, perWidth_of_fourBit hw]
  case eightBit => rw [(heb hw).2, perWidth_of_eightBit hw]

theorem isLong_encFunction (dl n f : Bool) : isLong (encFunction dl n f) = false := by
  revert dl n f
  decide

theorem isLong_encEntry (id es : Bool) : isLong (encEntry id es) = false := by
  revert id es
  decide

theorem isLong_encDisplay (d c b : Bool) : isLong (encDisplay d c b) = false := by
  revert d c b
  decide

/-- Of BEGIN's five commands Clear and Home alone are of the long-delay class (R139). -/
theorem beginEvents_eq_sendBytes (c : Config) (m : BitVec 2) (g : DisplayConfig) :
    beginEvents c m g =
      [MicroEvent.setInit .busWidthProbe, MicroEvent.wait c.timing.tPowerup] ++ probeEvents c m ++ switchEvents c m
        ++ [MicroEvent.setInit .functionSet] ++ sendByte c m (functionSetByte c) false
        ++ (sendByte c m encClear false ++ [MicroEvent.wait c.timing.tLong])
        ++ (sendByte c m encHome false ++ [MicroEvent.wait c.timing.tLong])
        ++ [MicroEvent.setInit .entryModeSet] ++ sendByte c m (encEntry g.id g.s) false
        ++ [MicroEvent.setInit .displayControlSet] ++ sendByte c m (encDisplay g.d g.c g.b) false
        ++ [MicroEvent.setInit .ready] := by
  have hfunction : ¬ isLong (functionSetByte c) = true := by simp [functionSetByte, isLong_encFunction]
  have hentry : ¬ isLong (encEntry g.id g.s) = true := by simp [isLong_encEntry]
  have hdisplay : ¬ isLong (encDisplay g.d g.c g.b) = true := by simp [isLong_encDisplay]
  rw [beginEvents, sendCmd_of_not_isLong hfunction, sendCmd_of_isLong (v := encClear) (by decide),
    sendCmd_of_isLong (v := encHome) (by decide), sendCmd_of_not_isLong hentry, sendCmd_of_not_isLong hdisplay]

theorem phaseCount_beginEvents (c : Config) (m : BitVec 2) (g : DisplayConfig) :
    phaseCount (beginEvents c m g) = perWidth c 42 24 := by
  have hnil : phaseCount [] = 0 := rfl
  simp only [beginEvents_eq_sendBytes, probeEvents, phaseCount_append, phaseCount_setInit, phaseCount_wait,
    phaseCount_rawCmd, phaseCount_sendByte, hnil]
  cases hw : c.busWidth
  case fourBit => simp only [switchEvents_of_fourBit hw, phaseCount_rawCmd, perWidth_of_fourBit hw]
  case eightBit => simp only [switchEvents_of_eightBit hw, hnil, perWidth_of_eightBit hw]

theorem waitCount_beginEvents {c : Config} (h : c.timing.tAs = 0) (m : BitVec 2) (g : DisplayConfig) :
    waitCount (beginEvents c m g) = perWidth c 26 19 := by
  have hnil : waitCount [] = 0 := rfl
  simp only [beginEvents_eq_sendBytes, probeEvents, waitCount_append, waitCount_setInit, waitCount_wait,
    waitCount_rawCmd h, waitCount_sendByte h, hnil]
  cases hw : c.busWidth
  case fourBit => simp only [switchEvents_of_fourBit hw, waitCount_rawCmd h, perWidth_of_fourBit hw]
  case eightBit => simp only [switchEvents_of_eightBit hw, hnil, perWidth_of_eightBit hw]

theorem totalWait_beginEvents {c : Config} (h : c.timing = {}) (m : BitVec 2) (g : DisplayConfig) :
    totalWait (beginEvents c m g) = perWidth c 58610 58540 := by
  have hnil : totalWait [] = 0 := rfl
  simp only [beginEvents_eq_sendBytes, probeEvents, totalWait_append, totalWait_setInit, totalWait_wait,
    totalWait_rawCmd, totalWait_sendByte, Bool.false_eq_true, if_false, hnil, h]
  cases hw : c.busWidth
  case fourBit => simp only [switchEvents_of_fourBit hw, totalWait_rawCmd, perWidth_of_fourBit hw, h]
  case eightBit => simp only [switchEvents_of_eightBit hw, hnil, perWidth_of_eightBit hw]

/-- Settles O36: the default timing has no set-up wait, so the counts are those of R171. -/
theorem beginSizeAndDuration : Obligations.BeginSizeAndDuration := by
  intro s ht
  have hAs : s.conf.timing.tAs = 0 := by rw [ht]
  have hphases := phaseCount_beginEvents s.conf s.enMask .default
  have hwaits := waitCount_beginEvents hAs s.enMask .default
  have htotal := totalWait_beginEvents ht s.enMask .default
  refine ⟨_, exec_beginInit s, initWrites_beginEvents _ _ _, fun hw => ?fourBit, fun hw => ?eightBit⟩
  case fourBit =>
    simp only [perWidth_of_fourBit hw] at hphases hwaits htotal
    exact ⟨hphases, hwaits, htotal⟩
  case eightBit =>
    simp only [perWidth_of_eightBit hw] at hphases hwaits htotal
    exact ⟨hphases, hwaits, htotal⟩

end Sys2Proof.Machine
end

section
/-! The statements of 43_write.md (O18 to O21): the whole next state of each write, and the run of a block to
which a text is presented. -/

namespace Sys2Proof.Machine

/-! ### WRITE_CMD (R190) -/

theorem exec_writeCmd_loads (v : Byte) (s : State) :
    exec (.writeCmd v) s = .next { s with seq := sendCmd s.conf s.enMask v, busy := true } := by
  rw [← State.load_of_ne_nil (sendCmd_ne_nil _ _ _)]
  rfl

/-- Settles O18: the list of `sendCmd` by the long-delay class of the byte, as O11 gives it. -/
theorem writeCmdSendsTheCommand : Obligations.WriteCmdSendsTheCommand := by
  intro v s
  obtain ⟨-, hbyte, hlong, hshort⟩ := delaysAfterAByte s.conf s.enMask v
  rw [exec_writeCmd_loads]
  refine ⟨fun hv => ?_, fun hv => ?_⟩
  · rw [hlong hv, hbyte, List.append_assoc, List.singleton_append]
  · rw [hshort hv, hbyte]

/-! ### WRITE_TEXT (R191) -/

theorem exec_writeText_loads (c : Byte) (s : State) :
    exec (.writeText c) s = .next { s with seq := sendByte s.conf s.enMask c true, busy := true } := by
  rw [← State.load_of_ne_nil (sendByte_ne_nil _ _ _ _)]
  rfl

/-- Settles O19: WRITE_TEXT loads the frames of `sendByte` and the delay of a data byte. -/
theorem writeTextSendsTheCode : Obligations.WriteTextSendsTheCode := exec_writeText_loads

/-! ### WRITE_CUSTOM (R192) -/

theorem exec_writeCustom_of_lt {slot : Byte} (h : slot.toNat < 8) (s : State) :
    exec (.writeCustom slot) s = .next { s with seq := sendByte s.conf s.enMask slot true, busy := true } := by
  have hok : slotOk slot = true := decide_eq_true h
  rw [← State.load_of_ne_nil (sendByte_ne_nil _ _ _ _)]
  simp only [exec, execWriteCustom, hok, if_true]

theorem exec_writeCustom_of_le {slot : Byte} (h : 8 ≤ slot.toNat) (s : State) :
    exec (.writeCustom slot) s = .next (s.load []) := by
  have hok : slotOk slot = false := decide_eq_false (Nat.not_lt.2 h)
  simp only [exec, execWriteCustom, hok, Bool.false_eq_true, if_false]

/-- Settles O20: the row of OP 0x04, then the two ranges of the slot; the default `T_POST_DATA` is 2. -/
theorem writeCustomSendsASlotBelowEight : Obligations.WriteCustomSendsASlotBelowEight := by
  refine ⟨fun a b m => ?row, fun slot s =>
    ⟨fun h => exec_writeCustom_of_lt h s, fun h => exec_writeCustom_of_le h s, fun hw ht => ?slot3⟩⟩
  case row =>
    obtain ⟨-, -, -, row, -⟩ := requestFieldsReadAsTheyStand a b m
    exact row
  case slot3 =>
    rw [exec_writeCustom_of_lt (by decide), sendByte_of_eightBit hw, postDelay, ht]
    rfl

/-! ### What the bytes of a text strobe -/

theorem wires_flatMap_sendByte (c : Config) {m : BitVec 2} (h : m ≠ 0#2) (rs : Bool) (vs : List Byte) :
    wires c.busWidth (vs.flatMap fun v => sendByte c m v rs) = vs.map fun v => ⟨rs, v⟩ := by
  induction vs with
  | nil => exact wires_nil _
  | cons v vs ih => rw [List.flatMap_cons, wires_sendByte_append c m v rs h, ih, List.map_cons]

/-- On EightBit the strobes are the wire instructions themselves. -/
theorem strobes_flatMap_sendByte_of_eightBit {c : Config} (hw : c.busWidth = .eightBit) {m : BitVec 2}
    (h : m ≠ 0#2) (rs : Bool) (vs : List Byte) :
    strobes (vs.flatMap fun v => sendByte c m v rs) = vs.map fun v => ⟨rs, v⟩ := by
  have hwires := wires_flatMap_sendByte c h rs vs
  rwa [hw] at hwires

theorem strobes_flatMap_sendByte_of_fourBit {c : Config} (hw : c.busWidth = .fourBit) {m : BitVec 2}
    (h : m ≠ 0#2) (rs : Bool) (vs : List Byte) :
    strobes (vs.flatMap fun v => sendByte c m v rs)
      = vs.flatMap fun v => [⟨rs, highNibble v⟩, ⟨rs, lowNibble v⟩] := by
  have hbyte (v : Byte) : strobes (sendByte c m v rs) = [⟨rs, highNibble v⟩, ⟨rs, lowNibble v⟩] := by
    rw [strobes_sendByte c m v rs h, hw]
  induction vs with
  | nil => rfl
  | cons v vs ih => rw [List.flatMap_cons, strobes_append, hbyte, ih, List.flatMap_cons]

/-! ### A text served whole (R194) -/

/-- The words of a text, one WRITE_TEXT for each code (R85). -/
def textWords (cs : List Byte) : List Word := cs.map fun c => encode (.writeText c)

theorem textWords_cons (c : Byte) (cs : List Byte) :
    textWords (c :: cs) = encode (.writeText c) :: textWords cs := rfl

theorem accept_writeText (c : Byte) (s : State) :
    accept (encode (.writeText c)) s =
      .next { s with seq := sendByte s.conf s.enMask c true, busy := true } := by
  rw [accept_of_decode (decodeEncodeRoundTrip _), exec_writeText_loads]

/-- A served character adds its data byte to the trace; configuration, mask and progress stay. -/
theorem served_writeText (c : Byte) (s : State) :
    let t := s.served (encode (.writeText c))
    t.conf = s.conf ∧ t.cfg = s.cfg ∧ t.enMask = s.enMask ∧ t.initState = s.initState
      ∧ t.trace = s.trace ++ sendByte s.conf s.enMask c true := by
  rw [served_of_accept (accept_writeText c s)]
  obtain ⟨hconf, hcfg, hmask, -, -, -, htrace⟩ :=
    drained_fields { s with seq := sendByte s.conf s.enMask c true, busy := true }
  exact ⟨hconf, hcfg, hmask, drained_initState _ (initWrites_sendByte _ _ _ _), htrace⟩

/-- A served text adds the data bytes of its codes in order, and no other micro-event. -/
theorem servedAll_textWords (cs : List Byte) (s : State) :
    let t := s.servedAll (textWords cs)
    t.cfg = s.cfg ∧ t.enMask = s.enMask ∧ t.initState = s.initState
      ∧ t.trace = s.trace ++ cs.flatMap fun c => sendByte s.conf s.enMask c true := by
  induction cs generalizing s with
  | nil => exact ⟨rfl, rfl, rfl, (List.append_nil _).symm⟩
  | cons c cs ih =>
    obtain ⟨hconf, hcfg, hmask, hinit, htrace⟩ := served_writeText c s
    have h := ih (s.served (encode (.writeText c)))
    rw [hconf, hcfg, hmask, hinit, htrace, List.append_assoc] at h
    rwa [textWords_cons, servedAll_cons, List.flatMap_cons]

theorem servedAll_idle (ws : List Word) {s : State} (hs : s.Idle) : (s.servedAll ws).Idle := by
  induction ws generalizing s with
  | nil => exact hs
  | cons w ws ih => exact ih (served_idle w s)

/-- Settles O21: by O57 the run serves the words one after the other, and what they emit is the data bytes of
the codes. -/
theorem textEmitsItsCodesInOrder : Obligations.TextEmitsItsCodesInOrder := by
  intro cs s hwf hs hm hi
  have hwords : s.inputs = (textWords cs).map .word := by rw [hi, textWords, List.map_map]; rfl
  obtain ⟨n, hrun, -⟩ := requestsServedInAcceptanceOrder (textWords cs) s hwf hs hwords
  obtain ⟨hcfg, hmask, hinit, htrace⟩ := servedAll_textWords cs s
  obtain ⟨hbusy, hseq⟩ := servedAll_idle (textWords cs) hs
  exact ⟨n, _, hrun, ⟨hbusy, hseq⟩, rfl, hcfg, hmask, hinit, _, htrace,
    wires_flatMap_sendByte s.conf hm true cs,
    fun hw => strobes_flatMap_sendByte_of_eightBit hw hm true cs,
    fun hw => strobes_flatMap_sendByte_of_fourBit hw hm true cs⟩

end Sys2Proof.Machine
end

section
/-! The statements of 44_cursor_and_glyph.md (O16, O22 to O25): the address byte of a cursor position and of a
glyph slot, the whole next state of SET_CURSOR and CUSTOM_CHAR, and the wire instructions each loads. -/

namespace Sys2Proof.Machine

/-! ### The wire instructions of one byte and of a run of data bytes -/

theorem wires_sendByte (c : Config) {m : BitVec 2} (h : m ≠ 0#2) (v : Byte) (rs : Bool) :
    wires c.busWidth (sendByte c m v rs) = [⟨rs, v⟩] := by
  rw [← List.append_nil (sendByte c m v rs), wires_sendByte_append c m v rs h, wires_nil]

theorem wires_sendCmd (c : Config) {m : BitVec 2} (h : m ≠ 0#2) (v : Byte) :
    wires c.busWidth (sendCmd c m v) = [⟨false, v⟩] := by
  rw [← List.append_nil (sendCmd c m v), wires_sendCmd_append c m v h, wires_nil]

theorem wires_flatMap_sendByte_append (c : Config) {m : BitVec 2} (h : m ≠ 0#2) (rs : Bool) (vs : List Byte)
    (es : List MicroEvent) :
    wires c.busWidth ((vs.flatMap fun v => sendByte c m v rs) ++ es)
      = vs.map (fun v => ⟨rs, v⟩) ++ wires c.busWidth es := by
  induction vs with
  | nil => rfl
  | cons v vs ih =>
    rw [List.flatMap_cons, List.append_assoc, wires_sendByte_append c m v rs h, ih, List.map_cons,
      List.cons_append]

/-! ### The address byte of a cursor position (R210, R211) -/

theorem lineBase_length_of_wf {c : Config} (h : c.wf = true) : c.lineBase.length = c.lines := by
  simp only [Config.wf, Bool.and_eq_true] at h
  obtain ⟨⟨⟨_, hcount⟩, _⟩, _⟩ := h
  exact beq_iff_eq.1 hcount

/-- Every line of a well-formed configuration has a base address with room for its columns (R7, R9). -/
theorem exists_lineBase_of_wf {c : Config} (h : c.wf = true) {i : Nat} (hi : i < c.lines) :
    ∃ base : Byte, c.lineBase[i]? = some base ∧ c.baseOk base = true := by
  have hget := List.getElem?_eq_getElem (lineBase_length_of_wf h ▸ hi)
  exact ⟨_, hget, baseOk_of_wf h hget⟩

/-- A line ends at 0xFF at the latest, so adding a column does not wrap. -/
theorem toNat_add_of_baseOk {c : Config} {base column : Byte} (hb : c.baseOk base = true)
    (hcol : column.toNat < c.columns) : (base + column).toNat = base.toNat + column.toNat := by
  obtain ⟨-, hend⟩ : base.msb = true ∧ base.toNat + c.columns - 1 ≤ 0xFF := by
    simpa [Config.baseOk] using hb
  exact BitVec.toNat_add_of_lt (by omega)

theorem cursorAddress_ge {c : Config} {base column : Byte} (hb : c.baseOk base = true)
    (hcol : column.toNat < c.columns) : 0x80 ≤ (base + column).toNat := by
  have hmsb : (base + column).msb = true := getLsbD_seven_of_baseOk hb hcol
  exact BitVec.toNat_ge_of_msb_true hmsb

theorem ofNat_toNat_add_mod (v w : Byte) : BitVec.ofNat 8 ((v.toNat + w.toNat) % 256) = v + w := by
  change BitVec.ofNat 8 (v + w).toNat = v + w
  rw [BitVec.ofNat_toNat, BitVec.setWidth_eq]

/-- A SET_DDRAM_ADDR byte is above the three bytes of the long-delay class (R210). -/
theorem isLong_eq_false_of_ge {v : Byte} (h : 0x80 ≤ v.toNat) : isLong v = false := by
  rw [Bool.eq_false_iff, Ne, isLong_iff]
  rintro (rfl | rfl | rfl) <;> exact absurd h (by decide)

/-! ### SET_CURSOR (R210) -/

/-- The whole next state of a position in range, from the base address of its line. -/
theorem exec_setCursor_of_lineBase {line column base : Byte} {s : State} (hwf : s.conf.wf = true)
    (hl : line.toNat < s.conf.lines) (hcol : column.toNat < s.conf.columns)
    (hb : s.conf.lineBase[line.toNat]? = some base) :
    exec (.setCursor line column) s =
      .next { s with seq := sendByte s.conf s.enMask (base + column) false, busy := true } := by
  have hshort : ¬ isLong (base + column) = true :=
    Bool.eq_false_iff.1 (isLong_eq_false_of_ge (cursorAddress_ge (baseOk_of_wf hwf hb) hcol))
  obtain ⟨-, hinRange, -⟩ := cursorByteSetsDdramAddress
  obtain ⟨-, -, hexec⟩ := hinRange line column s base hwf hl hcol hb
  rw [hexec, encDdram, sendCmd_of_not_isLong hshort]

theorem exec_setCursor_of_outOfRange {line column : Byte} {s : State}
    (h : ¬ (line.toNat < s.conf.lines ∧ column.toNat < s.conf.columns)) :
    exec (.setCursor line column) s = .next { s with seq := [], busy := false } := by
  have hok : cursorOk s.conf line column = false := by
    rwa [cursorOk, ← Bool.decide_and, decide_eq_false_iff_not]
  simp only [exec, execSetCursor, hok, Bool.false_eq_true, if_false]
  rfl

/-- Settles O22: the row of OP 0x05, the two ranges, and the example, whose layout has two lines by R9. -/
theorem setCursorInAndOutOfRange : Obligations.SetCursorInAndOutOfRange := by
  refine ⟨fun a b m => ?row, fun line column s hwf =>
    ⟨fun hl hcol => ?inRange, exec_setCursor_of_outOfRange, fun hcolumns hbases => ?sixteenByTwo⟩⟩
  case row =>
    obtain ⟨-, -, -, -, row, -⟩ := requestFieldsReadAsTheyStand a b m
    exact row
  case inRange =>
    obtain ⟨base, hb, hok⟩ := exists_lineBase_of_wf hwf hl
    have hge := cursorAddress_ge hok hcol
    rw [exec_setCursor_of_lineBase hwf hl hcol hb]
    refine ⟨base, hb, hge, ?_⟩
    rw [ofNat_toNat_add_mod]
    exact ⟨isLong_eq_false_of_ge hge, rfl⟩
  case sixteenByTwo =>
    have hlines : s.conf.lines = 2 := by
      rw [← lineBase_length_of_wf hwf, hbases]
      rfl
    have hline2 : ¬ (2#8 : Byte).toNat < s.conf.lines := by
      rw [hlines]
      decide
    refine ⟨?_, exec_setCursor_of_outOfRange fun h => hline2 h.1⟩
    exact exec_setCursor_of_lineBase (base := 0xC0#8) hwf (by rw [hlines]; decide) (by rw [hcolumns]; decide)
      (by rw [hbases]; rfl)

/-- Settles O23: the list of a position in range is one byte, the other list is empty. -/
theorem setCursorWireInstruction : Obligations.SetCursorWireInstruction := by
  intro line column s hwf hm
  refine ⟨fun hl hcol => ?inRange, fun h => ⟨_, exec_setCursor_of_outOfRange h, wires_nil _⟩⟩
  case inRange =>
    obtain ⟨base, hb, hok⟩ := exists_lineBase_of_wf hwf hl
    exact ⟨base, _, hb, exec_setCursor_of_lineBase hwf hl hcol hb, toNat_add_of_baseOk hok hcol,
      wires_sendByte s.conf hm _ _⟩

/-! ### The CGRAM address of a glyph slot (R107, R213) -/

theorem cgramAddress_toNat_of_lt {slot : Byte} (h : slot.toNat < 8) :
    (cgramAddress slot).toNat = 8 * slot.toNat := by
  have hmul : (cgramAddress slot).toNat = slot.toNat * 8 % 256 := BitVec.toNat_mul slot 8#8
  omega

theorem cgramAddress_eq_shiftLeft (slot : Byte) : cgramAddress slot = slot <<< 3 :=
  (BitVec.shiftLeft_eq_mul_twoPow slot 3).symm

/-- An address below 64 passes the six-bit mask of the command whole. -/
theorem encCgram_of_lt {a : Byte} (h : a.toNat < 64) : encCgram a = 0x40#8 ||| a := by
  have hmask : a &&& 0x3F#8 = a := by
    apply BitVec.eq_of_toNat_eq
    rw [BitVec.toNat_and]
    exact Nat.and_two_pow_sub_one_of_lt_two_pow (n := 6) h
  rw [encCgram, hmask]

theorem encCgram_cgramAddress {slot : Byte} (h : slot.toNat < 8) :
    encCgram (cgramAddress slot) = 0x40#8 ||| (slot <<< 3) := by
  have hlt : (cgramAddress slot).toNat < 64 := by
    rw [cgramAddress_toNat_of_lt h]
    omega
  rw [encCgram_of_lt hlt, cgramAddress_eq_shiftLeft]

/-- Settles O16: the product of a slot below 8 neither wraps nor reaches the mask. -/
theorem glyphAddressIsSlotTimesEight : Obligations.GlyphAddressIsSlotTimesEight := by
  intro slot h
  have haddress := cgramAddress_toNat_of_lt h
  exact ⟨haddress, by omega, encCgram_cgramAddress h⟩

/-! ### CUSTOM_CHAR (R212, R74) -/

theorem bitmapRows_eq (m : BitVec 64) :
    bitmapRows m = [m.extractLsb' 0 8, m.extractLsb' 8 8, m.extractLsb' 16 8, m.extractLsb' 24 8,
      m.extractLsb' 32 8, m.extractLsb' 40 8, m.extractLsb' 48 8, m.extractLsb' 56 8] := rfl

/-- The whole next state of a slot in range: the address, the rows as data, Return-Home. -/
theorem exec_customChar_of_lt {slot : Byte} (h : slot.toNat < 8) (m : BitVec 64) (s : State) :
    exec (.customChar slot m) s = .next { s with
      seq := sendCmd s.conf s.enMask (0x40#8 ||| (slot <<< 3))
        ++ ((bitmapRows m).flatMap fun r => sendByte s.conf s.enMask r true)
        ++ sendCmd s.conf s.enMask 0x02#8,
      busy := true } := by
  have hok : slotOk slot = true := decide_eq_true h
  rw [← State.load_of_ne_nil (List.append_ne_nil_of_right_ne_nil _ (sendCmd_ne_nil _ _ _)),
    ← encCgram_cgramAddress h]
  simp only [exec, execCustomChar, hok, if_true, glyphEvents, encHome]

theorem exec_customChar_of_le {slot : Byte} (h : 8 ≤ slot.toNat) (m : BitVec 64) (s : State) :
    exec (.customChar slot m) s = .next { s with seq := sendCmd s.conf s.enMask 0x02#8, busy := true } := by
  have hok : slotOk slot = false := decide_eq_false (Nat.not_lt.2 h)
  rw [← State.load_of_ne_nil (sendCmd_ne_nil _ _ _)]
  simp only [exec, execCustomChar, hok, Bool.false_eq_true, if_false, encHome, List.nil_append]

/-- Settles O24: the rows written out one by one. -/
theorem customCharSequence : Obligations.CustomCharSequence := by
  refine fun slot m s => ⟨fun h => ?_, fun h => exec_customChar_of_le h m s⟩
  rw [exec_customChar_of_lt h, bitmapRows_eq]
  simp only [List.flatMap_cons, List.flatMap_nil, List.append_nil, List.append_assoc]

/-- Settles O25: the address command and Return-Home carry one instruction each, and the rows one apiece. -/
theorem customCharWireInstructions : Obligations.CustomCharWireInstructions := by
  refine fun slot m s hm => ⟨fun h => ⟨_, exec_customChar_of_lt h m s, ?_⟩,
    fun h => ⟨_, exec_customChar_of_le h m s, wires_sendCmd s.conf hm _⟩⟩
  rw [List.append_assoc, wires_sendCmd_append _ _ _ hm, wires_flatMap_sendByte_append _ hm, wires_sendCmd _ hm,
    bitmapRows_eq]
  rfl

end Sys2Proof.Machine
end

section
/-! The statements of 45_configuration.md but R245 (O26 to O33, O42): the ten toggles as one operation on a
flag of the staged configuration, UPDATE_CONFIG, SET_EN_MASK and the reserved requests. -/

namespace Sys2Proof.Machine

/-! ### Writing one flag of the staged configuration (R34) -/

/-- `cfg` with one flag at the value `v`. -/
def DisplayConfig.setFlag (f : ConfigFlag) (v : Bool) (g : DisplayConfig) : DisplayConfig :=
  match f with
  | .d => { g with d := v }
  | .c => { g with c := v }
  | .b => { g with b := v }
  | .id => { g with id := v }
  | .s => { g with s := v }

@[simp] theorem flag_setFlag_same (f : ConfigFlag) (v : Bool) (g : DisplayConfig) : (g.setFlag f v).flag f = v := by
  cases f <;> rfl

theorem flag_setFlag_of_ne {f f' : ConfigFlag} (h : f' ≠ f) (v : Bool) (g : DisplayConfig) :
    (g.setFlag f v).flag f' = g.flag f' := by
  cases f <;> cases f' <;> simp [DisplayConfig.setFlag] at h ⊢

@[simp] theorem setFlag_setFlag_same (f : ConfigFlag) (v v' : Bool) (g : DisplayConfig) :
    (g.setFlag f v).setFlag f v' = g.setFlag f v' := by
  cases f <;> rfl

theorem setFlag_comm {f f' : ConfigFlag} (h : f ≠ f') (v v' : Bool) (g : DisplayConfig) :
    (g.setFlag f v).setFlag f' v' = (g.setFlag f' v').setFlag f v := by
  refine flag_ext _ _ fun k => ?_
  by_cases hf : k = f
  · subst hf
    rw [flag_setFlag_of_ne h, flag_setFlag_same, flag_setFlag_same]
  by_cases hf' : k = f'
  · subst hf'
    rw [flag_setFlag_same, flag_setFlag_of_ne hf, flag_setFlag_same]
  rw [flag_setFlag_of_ne hf', flag_setFlag_of_ne hf, flag_setFlag_of_ne hf, flag_setFlag_of_ne hf']

theorem setFlag_flag (f : ConfigFlag) (g : DisplayConfig) : g.setFlag f (g.flag f) = g := by
  cases f <;> rfl

/-! ### The toggles (R230 to R240) -/

/-- The toggle that writes `v` to the flag `f` (R231 to R240). -/
def toggleOf : ConfigFlag → Bool → Instr
  | .d, true => .displayOn
  | .d, false => .displayOff
  | .c, true => .cursorOn
  | .c, false => .cursorOff
  | .b, true => .blinkOn
  | .b, false => .blinkOff
  | .id, true => .leftToRight
  | .id, false => .rightToLeft
  | .s, true => .autoscrollOn
  | .s, false => .autoscrollOff

theorem toggleFlag_toggleOf (f : ConfigFlag) (v : Bool) : toggleFlag (toggleOf f v) = some f := by
  cases f <;> cases v <;> rfl

theorem exists_toggleOf_of_toggleFlag {i : Instr} {f : ConfigFlag} (h : toggleFlag i = some f) :
    ∃ v, i = toggleOf f v := by
  cases i with
  | displayOn | cursorOn | blinkOn | autoscrollOn | leftToRight => cases h; exact ⟨true, rfl⟩
  | displayOff | cursorOff | blinkOff | autoscrollOff | rightToLeft => cases h; exact ⟨false, rfl⟩
  | _ => cases h

theorem exists_toggleOf_of_isSome {i : Instr} (h : (toggleFlag i).isSome = true) : ∃ f v, i = toggleOf f v := by
  obtain ⟨f, hf⟩ := Option.isSome_iff_exists.1 h
  exact ⟨f, exists_toggleOf_of_toggleFlag hf⟩

/-- The state a toggle leaves: its flag written, its list empty, the request complete (R230). -/
def State.toggled (f : ConfigFlag) (v : Bool) (s : State) : State :=
  { s with cfg := s.cfg.setFlag f v, seq := [], busy := false }

theorem exec_toggleOf (f : ConfigFlag) (v : Bool) (s : State) : exec (toggleOf f v) s = .next (s.toggled f v) := by
  cases f <;> cases v <;> rfl

theorem State.toggled_idle (f : ConfigFlag) (v : Bool) (s : State) : (s.toggled f v).Idle := ⟨rfl, rfl⟩

theorem toggled_toggled_same (f : ConfigFlag) (v v' : Bool) (s : State) :
    (s.toggled f v).toggled f v' = s.toggled f v' := by
  simp [State.toggled]

theorem toggled_comm {f f' : ConfigFlag} (h : f ≠ f') (v v' : Bool) (s : State) :
    (s.toggled f v).toggled f' v' = (s.toggled f' v').toggled f v := by
  simp [State.toggled, setFlag_comm h v v']

theorem toggled_of_idle (f : ConfigFlag) (v : Bool) {s : State} (hs : s.Idle) :
    s.toggled f v = { s with cfg := s.cfg.setFlag f v } := by
  obtain ⟨hb, hseq⟩ := hs
  rw [State.toggled, ← hb, ← hseq]

/-- On an idle block a flag that already has the value leaves nothing to change. -/
theorem exec_toggleOf_of_idle (f : ConfigFlag) (v : Bool) {s : State} (hs : s.Idle) (hv : s.cfg.flag f = v) :
    exec (toggleOf f v) s = .next s := by
  rw [exec_toggleOf, toggled_of_idle f v hs, ← hv, setFlag_flag]

theorem accept_encode (i : Instr) (s : State) : accept (encode i) s = exec i s :=
  accept_of_decode (decodeEncodeRoundTrip i) s

theorem served_toggleOf (f : ConfigFlag) (v : Bool) (s : State) :
    s.served (encode (toggleOf f v)) = s.toggled f v := by
  have haccept := (accept_encode _ s).trans (exec_toggleOf f v s)
  rw [served_of_accept haccept, drained_of_idle _ (s.toggled_idle f v)]

theorem flag_served_toggleOf (f : ConfigFlag) (v : Bool) (s : State) :
    (s.served (encode (toggleOf f v))).cfg.flag f = v := by
  rw [served_toggleOf]
  exact flag_setFlag_same f v s.cfg

/-! ### UPDATE_CONFIG (R242) -/

/-- The list of UPDATE_CONFIG: the display-control byte, then the entry-mode byte. -/
def updateEvents (c : Config) (m : BitVec 2) (g : DisplayConfig) : List MicroEvent :=
  sendCmd c m (encDisplay g.d g.c g.b) ++ sendCmd c m (encEntry g.id g.s)

theorem updateEvents_ne_nil (c : Config) (m : BitVec 2) (g : DisplayConfig) : updateEvents c m g ≠ [] :=
  List.append_ne_nil_of_right_ne_nil _ (sendCmd_ne_nil _ _ _)

theorem exec_updateConfig (s : State) :
    exec .updateConfig s = .next { s with seq := updateEvents s.conf s.enMask s.cfg, busy := true } := by
  rw [← State.load_of_ne_nil (updateEvents_ne_nil _ _ _)]
  rfl

/-- Settles O31: the list is not empty, so acceptance sets `busy`. -/
theorem updateConfigSequence : Obligations.UpdateConfigSequence := exec_updateConfig

theorem wires_updateEvents (c : Config) {m : BitVec 2} (h : m ≠ 0#2) (g : DisplayConfig) :
    wires c.busWidth (updateEvents c m g) = [⟨false, encDisplay g.d g.c g.b⟩, ⟨false, encEntry g.id g.s⟩] := by
  rw [updateEvents, wires_sendCmd_append c m _ h, wires_sendCmd c h]

theorem drained_trace (s : State) : s.drained.trace = s.trace ++ s.seq := by
  obtain ⟨-, -, -, -, -, -, htrace⟩ := drained_fields s
  exact htrace

theorem trace_served_updateConfig (s : State) :
    (s.served (encode .updateConfig)).trace = s.trace ++ updateEvents s.conf s.enMask s.cfg := by
  rw [served_of_accept ((accept_encode _ s).trans (exec_updateConfig s)), drained_trace]

/-- From reset, a toggle and UPDATE_CONFIG send the two bytes of the defaults with the toggle's flag written. -/
theorem wires_toggle_updateConfig (f : ConfigFlag) (v : Bool) (c : Config) :
    let g := DisplayConfig.default.setFlag f v
    wires c.busWidth ((State.resetWith c).servedAll [encode (toggleOf f v), encode .updateConfig]).trace
      = [⟨false, encDisplay g.d g.c g.b⟩, ⟨false, encEntry g.id g.s⟩] := by
  rw [servedAll_cons, served_toggleOf, servedAll_cons]
  have htrace := trace_served_updateConfig ((State.resetWith c).toggled f v)
  exact (congrArg (wires c.busWidth) htrace).trans (wires_updateEvents c (m := 0b11#2) (by decide) _)

/-! ### The rows of the toggles (O26 to O28) -/

/-- Settles O26: each row is the toggle of its flag and value; the bytes of the examples are computed from the
reset configuration. -/
theorem displayControlToggles : Obligations.DisplayControlToggles := by
  refine ⟨fun a b m => ?rows,
    fun s => ⟨exec_toggleOf .d true s, exec_toggleOf .d false s, exec_toggleOf .c true s,
      exec_toggleOf .c false s, exec_toggleOf .b true s, exec_toggleOf .b false s⟩,
    fun s hs => ⟨exec_toggleOf_of_idle .d true hs, exec_toggleOf_of_idle .d false hs,
      exec_toggleOf_of_idle .c true hs, exec_toggleOf_of_idle .c false hs,
      exec_toggleOf_of_idle .b true hs, exec_toggleOf_of_idle .b false hs⟩,
    fun c => ⟨flag_served_toggleOf .d true _, flag_served_toggleOf .c false _, flag_served_toggleOf .b false _,
      wires_toggle_updateConfig .d false c, wires_toggle_updateConfig .c true c,
      wires_toggle_updateConfig .b true c⟩⟩
  case rows =>
    obtain ⟨-, -, -, -, -, -, -, -, -, hdOn, hdOff, hcOn, hcOff, hbOn, hbOff, -⟩ :=
      requestFieldsReadAsTheyStand a b m
    exact ⟨hdOn, hdOff, hcOn, hcOff, hbOn, hbOff⟩

/-- Settles O27, as O26 for the flag S. -/
theorem autoscrollToggles : Obligations.AutoscrollToggles := by
  refine ⟨fun a b m => ?rows, fun s => ⟨exec_toggleOf .s true s, exec_toggleOf .s false s⟩,
    fun s hs => ⟨exec_toggleOf_of_idle .s true hs, exec_toggleOf_of_idle .s false hs⟩,
    fun c => ⟨flag_served_toggleOf .s false _, wires_toggle_updateConfig .s true c⟩⟩
  case rows =>
    obtain ⟨-, -, -, -, -, -, -, -, -, -, -, -, -, -, -, hsOn, hsOff, -⟩ := requestFieldsReadAsTheyStand a b m
    exact ⟨hsOn, hsOff⟩

/-- Settles O28, as O26 for the flag ID. -/
theorem directionToggles : Obligations.DirectionToggles :=
  ⟨fun s => ⟨exec_toggleOf .id true s, exec_toggleOf .id false s⟩,
    fun _ hs => ⟨exec_toggleOf_of_idle .id true hs, exec_toggleOf_of_idle .id false hs⟩,
    fun c => ⟨flag_served_toggleOf .id true _, wires_toggle_updateConfig .id false c⟩⟩

/-! ### What the toggles have in common (R230) -/

/-- A word of a toggle's OP is that toggle, whatever its operands (R72, R230). -/
theorem decode_of_opOf_toggleOf {w : ReqWord} {f : ConfigFlag} {v : Bool}
    (h : Laws.Format.opOf (toggleOf f v) = some (opField w)) : decode (.req88 w) = .ok (toggleOf f v) := by
  have rows := requestFieldsReadAsTheyStand (aField w) (bField w) (mField w)
  rw [← reqWord_fields w]
  cases f <;> cases v <;> (have hop := Option.some.inj h; simp only [← hop, toggleOf, rows])

theorem exists_toggleOf_of_op {op : Byte} (hlo : 0x10 ≤ op.toNat) (hhi : op.toNat ≤ 0x19) :
    ∃ f v, Laws.Format.opOf (toggleOf f v) = some op := by
  have hop : op = BitVec.ofNat 8 op.toNat := by simp
  generalize op.toNat = n at hop hlo hhi
  subst hop
  interval_cases n
  exacts [⟨.d, true, rfl⟩, ⟨.d, false, rfl⟩, ⟨.c, true, rfl⟩, ⟨.c, false, rfl⟩, ⟨.b, true, rfl⟩,
    ⟨.b, false, rfl⟩, ⟨.s, true, rfl⟩, ⟨.s, false, rfl⟩, ⟨.id, true, rfl⟩, ⟨.id, false, rfl⟩]

/-- Of all instructions UPDATE_CONFIG alone loads a list that `cfg` enters. -/
theorem exec_seq_of_cfg {j : Instr} (hj : j ≠ .updateConfig) (s : State) (g : DisplayConfig)
    (es : List MicroEvent) (b : Bool) :
    ∃ u v, exec j s = .next u ∧ exec j { s with cfg := g, seq := es, busy := b } = .next v ∧ u.seq = v.seq := by
  cases j with
  | updateConfig => exact absurd rfl hj
  | setEnMask m =>
    simp only [exec, execSetEnMask]
    exact ⟨_, _, rfl, rfl, rfl⟩
  | _ => exact ⟨_, _, rfl, rfl, rfl⟩

/-- Settles O29: words by their OP, then each clause from the state the toggle leaves; BEGIN writes all of
`cfg` and `seq` anew. -/
theorem togglesFollowTheirTemplate : Obligations.TogglesFollowTheirTemplate := by
  constructor
  case left =>
    intro w w' hlo hhi hop
    obtain ⟨f, v, h⟩ := exists_toggleOf_of_op hlo hhi
    refine ⟨toggleOf f v, decode_of_opOf_toggleOf h, decode_of_opOf_toggleOf (hop ▸ h), ?_⟩
    rw [toggleFlag_toggleOf, Option.isSome_some]
  case right =>
    intro i f hi
    obtain ⟨v, rfl⟩ := exists_toggleOf_of_toggleFlag hi
    refine ⟨v, fun s => ⟨s.toggled f v, exec_toggleOf f v s, rfl, flag_setFlag_same f v s.cfg,
      fun g hg => flag_setFlag_of_ne hg v s.cfg, fun k => exec_toggleOf f v _,
      fun j hj => exec_seq_of_cfg hj s _ _ _, ?_⟩⟩
    rw [exec_beginInit, exec_beginInit]
    rfl

/-- Settles O30: the laws of writing a flag. -/
theorem toggleLaws : Obligations.ToggleLaws := by
  refine ⟨fun i s hi => ?idempotent, fun i j s hi hj hne => ?commute, fun i j s hi heq => ?laterWins⟩
  all_goals obtain ⟨f, v, rfl⟩ := exists_toggleOf_of_isSome hi
  case idempotent =>
    refine ⟨_, exec_toggleOf f v s, ?_⟩
    rw [exec_toggleOf, toggled_toggled_same]
  case commute =>
    obtain ⟨f', v', rfl⟩ := exists_toggleOf_of_isSome hj
    simp only [toggleFlag_toggleOf, ne_eq, Option.some.injEq] at hne
    refine ⟨_, _, _, exec_toggleOf f v s, exec_toggleOf f' v' s, exec_toggleOf f' v' _, ?_⟩
    rw [exec_toggleOf, toggled_comm hne]
  case laterWins =>
    obtain ⟨v', rfl⟩ := exists_toggleOf_of_toggleFlag (heq.symm.trans (toggleFlag_toggleOf f v))
    refine ⟨_, exec_toggleOf f v s, ?_⟩
    rw [exec_toggleOf, exec_toggleOf, toggled_toggled_same]

/-- Toggles served one after the other leave an idle block as it was but for `cfg`. -/
theorem servedAll_toggles {ts : List Instr} (hts : ∀ i ∈ ts, (toggleFlag i).isSome = true) {s : State}
    (hs : s.Idle) : ∃ g, s.servedAll (ts.map encode) = { s with cfg := g } := by
  induction ts generalizing s with
  | nil => exact ⟨s.cfg, rfl⟩
  | cons i ts ih =>
    obtain ⟨hi, hrest⟩ := List.forall_mem_cons.1 hts
    obtain ⟨f, v, rfl⟩ := exists_toggleOf_of_isSome hi
    obtain ⟨g, hg⟩ := ih hrest (s.toggled_idle f v)
    refine ⟨g, ?_⟩
    rw [List.map_cons, servedAll_cons, served_toggleOf, hg, toggled_of_idle f v hs]

/-- Settles O32: UPDATE_CONFIG finds the mask and the trace as they were before the toggles. -/
theorem togglesThenUpdateEmitTwoBytes : Obligations.TogglesThenUpdateEmitTwoBytes := by
  intro ts s hts hs hm
  obtain ⟨g, hg⟩ := servedAll_toggles hts hs
  rw [hg]
  exact ⟨rfl, _, exec_updateConfig _, wires_updateEvents s.conf hm _⟩

/-! ### SET_EN_MASK and the reserved requests (R243, R246) -/

/-- Settles O33. -/
theorem setEnMaskWritesALegalMask : Obligations.SetEnMaskWritesALegalMask := by
  refine fun m s => ⟨fun hm => ?legal, fun hm => ?zero⟩
  case legal =>
    simp only [exec, execSetEnMask, if_neg hm]
    rfl
  case zero =>
    simp only [exec, execSetEnMask, if_pos hm]
    rfl

theorem accept_of_reservedOp {w : Word} {op : Byte} (h : decode w = .error (.reservedOp op)) (s : State) :
    accept w s = .next s := by
  simp [accept, h, acceptReject]

/-- Settles O42: the OP is that of no row, so the ready block takes the word and does nothing with it. -/
theorem reservedRequestsDoNothing : Obligations.ReservedRequestsDoNothing := by
  intro s w rest hwf hb hin hop
  obtain ⟨-, hreserved⟩ := requestWordsByOpValue w
  rw [step_of_ready hwf hb hin, accept_of_reservedOp (hreserved hop)]

end Sys2Proof.Machine
end

section
/-! The Enable mask on I2C (45_configuration.md R245, O50): the calls a micro-event list makes there are the
same at every legal mask, and so are those of two blocks that differ in nothing else. -/

namespace Sys2Proof.Machine

/-! ### The calls of a framed byte (R137) -/

@[simp] theorem transportActs_append (c : Config) (as bs : List MicroEvent) :
    transportActs c (as ++ bs) = transportActs c as ++ transportActs c bs :=
  List.filterMap_append

theorem transportActs_phaseEv (c : Config) (rs : Bool) (en : BitVec 2) (d : Byte) (es : List MicroEvent) :
    transportActs c (phaseEv rs en d :: es) = realise c ⟨rs, en, d⟩ :: transportActs c es := rfl

theorem transportActs_wait (c : Config) (n : Nat) (es : List MicroEvent) :
    transportActs c (.wait n :: es) = transportActs c es := rfl

section
variable {c : Config} {m m' : BitVec 2} (hi : c.transport = .i2c) (hm : m ≠ 0#2) (hm' : m' ≠ 0#2)
include hi hm hm'

/-- The backpack byte has one Enable bit, the or of the mask (R82). -/
theorem realise_i2c_mask (rs : Bool) (d : Byte) : realise c ⟨rs, m, d⟩ = realise c ⟨rs, m', d⟩ := by
  have henable : (m != 0#2) = (m' != 0#2) := by rw [bne_iff_ne.2 hm, bne_iff_ne.2 hm']
  simp only [realise, hi, Phase.i2cByte, henable]

theorem transportActs_tx (rs : Bool) (d : Byte) :
    transportActs c (tx c m rs d) = transportActs c (tx c m' rs d) := by
  have hphase := realise_i2c_mask hi hm hm' rs d
  simp only [tx, transportActs_phaseEv, transportActs_append, transportActs_wait, hphase]

theorem transportActs_sendByte (v : Byte) (rs : Bool) :
    transportActs c (sendByte c m v rs) = transportActs c (sendByte c m' v rs) := by
  cases hw : c.busWidth
  case fourBit => simp only [sendByte_of_fourBit hw, transportActs_append, transportActs_tx hi hm hm']
  case eightBit => simp only [sendByte_of_eightBit hw, transportActs_append, transportActs_tx hi hm hm']

theorem transportActs_sendCmd (v : Byte) :
    transportActs c (sendCmd c m v) = transportActs c (sendCmd c m' v) := by
  simp only [sendCmd, transportActs_append, transportActs_sendByte hi hm hm']

theorem transportActs_rawCmd (v : Byte) (us : Nat) :
    transportActs c (rawCmd c m v us) = transportActs c (rawCmd c m' v us) := by
  simp only [rawCmd, transportActs_append, transportActs_tx hi hm hm']

theorem transportActs_switchEvents : transportActs c (switchEvents c m) = transportActs c (switchEvents c m') := by
  cases hw : c.busWidth
  case fourBit => simp only [switchEvents_of_fourBit hw, transportActs_rawCmd hi hm hm']
  case eightBit => simp only [switchEvents_of_eightBit hw]

theorem transportActs_beginEvents (g : DisplayConfig) :
    transportActs c (beginEvents c m g) = transportActs c (beginEvents c m' g) := by
  simp only [beginEvents, probeEvents, transportActs_append, transportActs_rawCmd hi hm hm',
    transportActs_switchEvents hi hm hm', transportActs_sendCmd hi hm hm']

theorem transportActs_glyphEvents (slot : Byte) (bitmap : BitVec 64) :
    transportActs c (glyphEvents c m slot bitmap) = transportActs c (glyphEvents c m' slot bitmap) := by
  have hrows (rows : List Byte) : transportActs c (rows.flatMap fun r => sendByte c m r true)
      = transportActs c (rows.flatMap fun r => sendByte c m' r true) := by
    induction rows with
    | nil => rfl
    | cons r rows ih =>
      rw [List.flatMap_cons, List.flatMap_cons, transportActs_append, transportActs_append,
        transportActs_sendByte hi hm hm', ih]
  simp only [glyphEvents, transportActs_append, transportActs_sendCmd hi hm hm', hrows]

end

theorem transportActs_append_congr {c : Config} {as as' bs bs' : List MicroEvent}
    (ha : transportActs c as = transportActs c as') (hb : transportActs c bs = transportActs c bs') :
    transportActs c (as ++ bs) = transportActs c (as' ++ bs') := by
  rw [transportActs_append, transportActs_append, ha, hb]

theorem transportActs_ite {c : Config} {p : Prop} [Decidable p] {as bs : List MicroEvent}
    (h : transportActs c as = transportActs c bs) :
    transportActs c (if p then as else []) = transportActs c (if p then bs else []) := by
  split
  · exact h
  · rfl

/-! ### Two blocks on I2C that differ in their masks -/

/-- What an instruction loads depends on the configuration, `cfg` and the mask, and on the mask not in the
calls it makes. -/
theorem exec_seq_of_mask (i : Instr) {s : State} (t : State) (hi : s.conf.transport = .i2c)
    (hs : s.enMask ≠ 0#2) (ht : t.enMask ≠ 0#2) :
    ∃ u v, exec i s = .next u ∧ exec i { t with conf := s.conf, cfg := s.cfg } = .next v ∧ v.cfg = u.cfg
      ∧ transportActs s.conf u.seq = transportActs s.conf v.seq := by
  have hcmd (d : Byte) := transportActs_sendCmd hi hs ht d
  have hbyte (d : Byte) (rs : Bool) := transportActs_sendByte hi hs ht d rs
  cases i with
  | beginInit =>
    exact ⟨_, _, exec_beginInit s, exec_beginInit _, rfl, transportActs_beginEvents hi hs ht .default⟩
  | writeText c => exact ⟨_, _, rfl, rfl, rfl, hbyte c true⟩
  | writeData c => exact ⟨_, _, rfl, rfl, rfl, hbyte c true⟩
  | send v rs => exact ⟨_, _, rfl, rfl, rfl, hbyte v rs⟩
  | writeCustom slot => exact ⟨_, _, rfl, rfl, rfl, transportActs_ite (hbyte slot true)⟩
  | setCursor l c => exact ⟨_, _, rfl, rfl, rfl, transportActs_ite (hcmd _)⟩
  | customChar slot bitmap =>
    have hglyph := transportActs_glyphEvents hi hs ht slot bitmap
    exact ⟨_, _, rfl, rfl, rfl, transportActs_append_congr (transportActs_ite hglyph) (hcmd encHome)⟩
  | updateConfig => exact ⟨_, _, rfl, rfl, rfl, transportActs_append_congr (hcmd _) (hcmd _)⟩
  | setEnMask m =>
    simp only [exec, execSetEnMask]
    refine ⟨_, _, rfl, rfl, ?_, rfl⟩
    split <;> rfl
  | displayOn | displayOff | cursorOn | cursorOff | blinkOn | blinkOff | autoscrollOn | autoscrollOff
  | leftToRight | rightToLeft => exact ⟨_, _, rfl, rfl, rfl, rfl⟩
  | writeCmd | clearDisplay | returnHome | entryModeSet | displayControl | cursorDisplayShift | functionSet
  | setCgramAddr | setDdramAddr => exact ⟨_, _, rfl, rfl, rfl, hcmd _⟩

/-- No acceptance leaves a mask of 0b00 (R29, R243). -/
theorem accept_next_mask {w : Word} {s t : State} (h : accept w s = .next t) (hm : s.enMask ≠ 0#2) :
    t.enMask ≠ 0#2 := by
  obtain e | ⟨g, m, es, e, hmask, -⟩ := accept_loads w s
  all_goals rw [e] at h; cases h
  · exact hm
  · exact hmask hm

/-- Two blocks of the I2C configuration `c` with the same `cfg` and legal masks, whose transport has seen the
same calls and is to see the same. -/
structure MaskTwins (c : Config) (s t : State) : Prop where
  i2c     : c.transport = .i2c
  conf    : s.conf = c
  conf'   : t.conf = c
  cfg     : t.cfg = s.cfg
  mask    : s.enMask ≠ 0#2
  mask'   : t.enMask ≠ 0#2
  emitted : transportActs c s.trace = transportActs c t.trace
  toCome  : transportActs c s.seq = transportActs c t.seq

theorem accept_of_noInstruction {w : Word} (h : decode w = .error .noInstruction) (s : State) :
    accept w s = .next (s.emitCommand 0x00#8) := by
  simp [accept, h, acceptReject]

/-- Two blocks that are twins accept a word with the same `cfg` and the same calls to come. -/
theorem MaskTwins.accept_next {c : Config} {s t : State} (h : MaskTwins c s t) (w : Word) :
    ∃ u v, accept w s = .next u ∧ accept w t = .next v ∧ v.cfg = u.cfg
      ∧ transportActs c u.seq = transportActs c v.seq := by
  obtain ⟨hi, rfl, hconf, hcfg, hs, ht, -, hseq⟩ := h
  obtain ⟨i, hd, e⟩ | ⟨op, hd, e⟩ | ⟨hd, e⟩ := accept_cases w s
  · obtain ⟨u, v, hu, hv, huv⟩ := exec_seq_of_mask i t hi hs ht
    rw [← hconf, ← hcfg] at hv
    exact ⟨u, v, e.trans hu, (accept_of_decode hd t).trans hv, huv⟩
  · exact ⟨s, t, e, accept_of_reservedOp hd t, hcfg, hseq⟩
  · refine ⟨_, _, e, accept_of_noInstruction hd t, hcfg, ?_⟩
    simp only [State.emitCommand, State.load_seq, hconf]
    exact transportActs_sendCmd hi hs ht 0x00#8

/-- Serving a word at both blocks keeps them twins. -/
theorem MaskTwins.served {c : Config} {s t : State} (h : MaskTwins c s t) (w : Word) :
    MaskTwins c (s.served w) (t.served w) := by
  obtain ⟨u, v, hu, hv, hcfg, hseq⟩ := h.accept_next w
  obtain ⟨-, -, hutrace⟩ := accept_next_frame hu
  obtain ⟨-, -, hvtrace⟩ := accept_next_frame hv
  have huconf := (served_conf w s).trans h.conf
  have hvconf := (served_conf w t).trans h.conf'
  rw [served_of_accept hu] at huconf ⊢
  rw [served_of_accept hv] at hvconf ⊢
  obtain ⟨-, hucfg, humask, -, hunil, -, -⟩ := drained_fields u
  obtain ⟨-, hvcfg, hvmask, -, hvnil, -, -⟩ := drained_fields v
  exact {
    i2c := h.i2c
    conf := huconf
    conf' := hvconf
    cfg := by rw [hucfg, hvcfg, hcfg]
    mask := humask ▸ accept_next_mask hu h.mask
    mask' := hvmask ▸ accept_next_mask hv h.mask'
    emitted := by
      rw [drained_trace, drained_trace, hutrace, hvtrace, transportActs_append, transportActs_append, h.emitted, hseq]
    toCome := by rw [hunil, hvnil] }

theorem MaskTwins.servedAll {c : Config} {s t : State} (h : MaskTwins c s t) (ws : List Word) :
    MaskTwins c (s.servedAll ws) (t.servedAll ws) := by
  induction ws generalizing s t with
  | nil => exact h
  | cons w ws ih => exact ih (h.served w)

/-- Settles O50: blocks that differ in a legal mask are twins, and serving words keeps them so. -/
theorem i2cWireIndependentOfMask : Obligations.I2cWireIndependentOfMask := by
  intro ws s m hi hs hm
  have htwins : MaskTwins s.conf s { s with enMask := m } := ⟨hi, rfl, rfl, rfl, hs, hm, rfl, rfl⟩
  exact (htwins.servedAll ws).emitted

end Sys2Proof.Machine
end

section
/-! The statements of 60_exceptions.md (O44, O51, O56): no step of a well-formed block fails, a request in
progress runs to its end, and an idle block to which nothing is presented holds its state. -/

namespace Sys2Proof.Machine

/-- No step of a well-formed block fails: the sequencer and reset always answer, and so does the acceptance
of any word (R260). -/
theorem exists_step_next_of_wf {s : State} (hwf : s.conf.wf = true) : ∃ t, step s = .next t := by
  obtain ⟨-, e⟩ | ⟨rest, -, e⟩ | ⟨rest, -, e⟩ | ⟨w, rest, -, -, e⟩ | ⟨w, rest, -, -, e⟩ := step_cases s hwf
  · exact ⟨_, e⟩
  · exact ⟨_, e⟩
  · exact ⟨_, e⟩
  · exact ⟨_, e⟩
  · obtain ⟨t, ha, -⟩ := accept_inputs w { s with inputs := rest } []
    exact ⟨t, e.trans ha⟩

/-- Settles O51: the configuration's check alone decides whether the block steps. -/
theorem stepAnswersNextOrRefusesConfiguration : Obligations.StepAnswersNextOrRefusesConfiguration :=
  fun s => ⟨exists_step_next_of_wf, step_illFormed s⟩

/-- Settles O56: one step for each micro-event drains the state, and a drained state is idle with the whole
of `seq` emitted. -/
theorem everyRequestRunsToItsEnd : Obligations.EveryRequestRunsToItsEnd := by
  refine ⟨nofun, fun _ => exists_step_next_of_wf, fun s ws hwf hbusy hi => ?_⟩
  obtain ⟨hconf, hcfg, hmask, -, -, hin, htr⟩ := drained_fields s
  exact ⟨s.drained, run_drains hwf hbusy hi, s.drained_idle, hin, htr, hcfg, hmask, hconf⟩

/-- Settles O44: with nothing presented the step only moves the sequencer, which holds when `seq` is empty. -/
theorem idleBlockHolds : Obligations.IdleBlockHolds := by
  intro s hwf hidle
  constructor
  · intro hi
    rw [step_of_nothing hwf hi, State.advance_nil s hidle.noSeq]
  · intro rest hi
    rw [step_of_quiet hwf hi, State.advance_nil { s with inputs := rest } hidle.noSeq]

end Sys2Proof.Machine
end

section
/-! The statements of 70_reset_and_hazards.md (O46, O52, O55): the step that takes a reset, the acceptance of an
instruction in every `init_state`, and the duration of each request's list with the default timing. -/

namespace Sys2Proof.Machine

/-! ### Reset (R280 to R282) -/

theorem step_of_reset {s : State} {rest : List Input} (hwf : s.conf.wf = true) (hi : s.inputs = .reset :: rest) :
    step s = .next ({ s with inputs := rest } : State).takeReset := by
  simp [step, gatedStep, blockStep, hwf, hi]

/-- Settles O46: `takeReset` keeps the configuration, the inputs left and the trace, and nothing else. -/
theorem resetCutsTheRequest : Obligations.ResetCutsTheRequest := fun _ _ hwf hi => step_of_reset hwf hi

/-! ### No request is guarded by init_state (R285) -/

/-- Settles O52: no meaning reads `init_state`, so the same acceptance answers at every value of it. SET_EN_MASK
answers by its mask (R243), every other instruction in one way. -/
theorem requestsAreNotGuarded : Obligations.RequestsAreNotGuarded := by
  intro i s k
  cases i with
  | setEnMask mask =>
    simp only [exec, execSetEnMask]
    split
    · exact ⟨_, rfl, rfl⟩
    · exact ⟨_, rfl, rfl⟩
  | _ => exact ⟨_, rfl, rfl⟩

/-! ### The duration of a byte with the default timing (R293) -/

theorem perWidth_add (c : Config) (a b a' b' : Nat) :
    perWidth c a b + perWidth c a' b' = perWidth c (a + a') (b + b') := by
  cases hw : c.busWidth
  case fourBit => simp only [perWidth_of_fourBit hw]
  case eightBit => simp only [perWidth_of_eightBit hw]

theorem perWidth_map (f : Nat → Nat) (c : Config) (a b : Nat) : f (perWidth c a b) = perWidth c (f a) (f b) := by
  cases hw : c.busWidth
  case fourBit => simp only [perWidth_of_fourBit hw]
  case eightBit => simp only [perWidth_of_eightBit hw]

theorem perWidth_add_const (c : Config) (a b n : Nat) : perWidth c a b + n = perWidth c (a + n) (b + n) :=
  perWidth_map (· + n) c a b

theorem perWidth_mul (c : Config) (a b k : Nat) : perWidth c a b * k = perWidth c (a * k) (b * k) :=
  perWidth_map (· * k) c a b

theorem totalWait_nil : totalWait [] = 0 := rfl

/-- A SET_CGRAM_ADDR byte is not of the long-delay class (R139). -/
theorem isLong_cgramCommand (a : Byte) : isLong (0x40#8 ||| a) = false := by
  revert a
  decide

section
variable {c : Config} (ht : c.timing = {}) (m : BitVec 2)
include ht

/-- The strobes of the byte at `T_PWEH` each, and `T_POST_DATA`. -/
theorem totalWait_sendByte_data (v : Byte) : totalWait (sendByte c m v true) = perWidth c 12 7 := by
  rw [totalWait_sendByte, ht, if_pos rfl, perWidth_mul, perWidth_add_const]
  rfl

/-- The strobes of the byte at `T_PWEH` each, and `T_POST_CMD`. -/
theorem totalWait_sendByte_command (v : Byte) : totalWait (sendByte c m v false) = perWidth c 50 45 := by
  rw [totalWait_sendByte, ht, if_neg Bool.false_ne_true, perWidth_mul, perWidth_add_const]
  rfl

theorem totalWait_sendCmd_of_isLong {v : Byte} (hv : isLong v = true) :
    totalWait (sendCmd c m v) = perWidth c 2050 2045 := by
  rw [sendCmd_of_isLong hv, totalWait_append, totalWait_wait, totalWait_sendByte_command ht, ht, perWidth_add_const]
  rfl

theorem totalWait_sendCmd_of_not_isLong {v : Byte} (hv : isLong v = false) :
    totalWait (sendCmd c m v) = perWidth c 50 45 := by
  rw [sendCmd_of_not_isLong (Bool.eq_false_iff.1 hv), totalWait_sendByte_command ht]

theorem totalWait_flatMap_data (vs : List Byte) :
    totalWait (vs.flatMap fun v => sendByte c m v true) = perWidth c (12 * vs.length) (7 * vs.length) := by
  rw [← perWidth_mul]
  induction vs with
  | nil => rw [List.flatMap_nil, totalWait_nil, List.length_nil, Nat.mul_zero]
  | cons v vs ih =>
    rw [List.flatMap_cons, totalWait_append, totalWait_sendByte_data ht, ih, List.length_cons, Nat.mul_succ,
      Nat.add_comm]

end

/-! ### The duration of each request -/

section
variable {s : State} (ht : s.conf.timing = {})
include ht

theorem writeCmd_duration (v : Byte) : ∃ t, exec (.writeCmd v) s = .next t
    ∧ totalWait t.seq = if isLong v then perWidth s.conf 2050 2045 else perWidth s.conf 50 45 := by
  refine ⟨_, exec_writeCmd_loads v s, ?_⟩
  split
  next hv => exact totalWait_sendCmd_of_isLong ht s.enMask hv
  next hv => exact totalWait_sendCmd_of_not_isLong ht s.enMask (Bool.eq_false_iff.2 hv)

theorem writeCustom_duration (slot : Byte) : ∃ t, exec (.writeCustom slot) s = .next t
    ∧ totalWait t.seq = if slot.toNat < 8 then perWidth s.conf 12 7 else 0 := by
  split
  next hlt => exact ⟨_, exec_writeCustom_of_lt hlt s, totalWait_sendByte_data ht s.enMask slot⟩
  next hge => exact ⟨_, exec_writeCustom_of_le (Nat.le_of_not_lt hge) s, totalWait_nil⟩

theorem setCursor_duration (hwf : s.conf.wf = true) (line column : Byte) :
    ∃ t, exec (.setCursor line column) s = .next t
      ∧ totalWait t.seq =
        if line.toNat < s.conf.lines ∧ column.toNat < s.conf.columns then perWidth s.conf 50 45 else 0 := by
  split
  next hin =>
    obtain ⟨hl, hcol⟩ := hin
    obtain ⟨base, hb, -⟩ := exists_lineBase_of_wf hwf hl
    exact ⟨_, exec_setCursor_of_lineBase hwf hl hcol hb, totalWait_sendByte_command ht s.enMask _⟩
  next hout => exact ⟨_, exec_setCursor_of_outOfRange hout, totalWait_nil⟩

/-- The address, the 8 rows and Return-Home; Return-Home alone for a slot out of range. -/
theorem customChar_duration (slot : Byte) (m : BitVec 64) : ∃ t, exec (.customChar slot m) s = .next t
    ∧ totalWait t.seq = if slot.toNat < 8 then perWidth s.conf 2196 2146 else perWidth s.conf 2050 2045 := by
  have hhome := totalWait_sendCmd_of_isLong ht s.enMask (v := 0x02#8) (by decide)
  split
  next hlt =>
    refine ⟨_, exec_customChar_of_lt hlt m s, ?_⟩
    rw [totalWait_append, totalWait_append, hhome, totalWait_flatMap_data ht,
      totalWait_sendCmd_of_not_isLong ht s.enMask (isLong_cgramCommand _), perWidth_add, perWidth_add]
    rfl
  next hge => exact ⟨_, exec_customChar_of_le (Nat.le_of_not_lt hge) m s, hhome⟩

/-- Neither byte of UPDATE_CONFIG is of the long-delay class. -/
theorem updateConfig_duration :
    ∃ t, exec .updateConfig s = .next t ∧ totalWait t.seq = perWidth s.conf 100 90 := by
  refine ⟨_, exec_updateConfig s, ?_⟩
  rw [updateEvents, totalWait_append, totalWait_sendCmd_of_not_isLong ht s.enMask (isLong_encDisplay _ _ _),
    totalWait_sendCmd_of_not_isLong ht s.enMask (isLong_encEntry _ _), perWidth_add]

theorem send_duration (v : Byte) (rs : Bool) : ∃ t, exec (.send v rs) s = .next t
    ∧ totalWait t.seq = if rs then perWidth s.conf 12 7 else perWidth s.conf 50 45 := by
  refine ⟨_, exec_send_loads v rs s, ?_⟩
  cases rs with
  | true => exact totalWait_sendByte_data ht s.enMask v
  | false => exact totalWait_sendByte_command ht s.enMask v

end

theorem setEnMask_duration (m : BitVec 2) (s : State) :
    ∃ t, exec (.setEnMask m) s = .next t ∧ totalWait t.seq = 0 := by
  obtain ⟨hlegal, hzero⟩ := setEnMaskWritesALegalMask m s
  by_cases hm : m = 0#2
  · exact ⟨_, hzero hm, totalWait_nil⟩
  · exact ⟨_, hlegal hm, totalWait_nil⟩

theorem toggle_duration {i : Instr} (hi : (toggleFlag i).isSome = true) (s : State) :
    ∃ t, exec i s = .next t ∧ totalWait t.seq = 0 := by
  obtain ⟨f, v, rfl⟩ := exists_toggleOf_of_isSome hi
  exact ⟨_, exec_toggleOf f v s, totalWait_nil⟩

/-- Settles O55: the rows of R293 in order, BEGIN's by R171. -/
theorem requestDurations : Obligations.RequestDurations := fun s hwf ht =>
  ⟨⟨_, exec_beginInit s, totalWait_beginEvents ht s.enMask .default⟩,
    writeCmd_duration ht,
    fun v => ⟨_, exec_writeText_loads v s, totalWait_sendByte_data ht s.enMask v⟩,
    writeCustom_duration ht,
    setCursor_duration ht hwf,
    customChar_duration ht,
    updateConfig_duration ht,
    send_duration ht,
    fun m => setEnMask_duration m s,
    fun _ hi => toggle_duration hi s⟩

end Sys2Proof.Machine
end
